-- ==== Sys2Proof/Word.lean ====
section
/-!
DEFINITION. The two widths of the WSFC (00_scope.md R8, R9): a register value is 32 bits, a byte is 8 bits, both unsigned.
Lengths and addresses in the rules are natural numbers and are kept as `Nat`.
-/

namespace Sys2Proof

/-- A register value or a command word, 32 bits (00_scope.md R9). -/
abbrev Word := BitVec 32

/-- A byte of the buffer or of the wire, 8 bits (00_scope.md R9). -/
abbrev Byte := BitVec 8

end Sys2Proof
end

