-- ==== Sys2Proof/Config.lean ====
section
/-!
DEFINITION. What an implementation fixes (the OPEN parameters of 00_scope.md R7) and the one free value (the entropy port).
-/

namespace Sys2Proof

/-- The OPEN parameters of 00_scope.md R7: they are fixed for one machine, and `Machine.State` carries them in its field
`cfg`, which no step changes, so that a statement about every state is about every choice of them (assumption 4). -/
structure Config where
  /-- Buffer size in bytes (20_memory.md R60). -/
  bufSize : Nat
  /-- Where the platform places the register window (20_memory.md R64). -/
  regBase : Nat
  /-- Where the platform places the buffer window (20_memory.md R64). -/
  bufBase : Nat
deriving DecidableEq, Repr

/-- The bounds 00_scope.md R7 puts on BUF_SIZE: 1 ≤ BUF_SIZE ≤ 2^32. -/
abbrev Config.Valid (c : Config) : Prop := 1 ≤ c.bufSize ∧ c.bufSize ≤ 0x100000000

/-- The parameters `State.reset` carries. DESIGN CHOICE (assumption 4, unsafe): the spec leaves all three OPEN; 1024 is the
size its programs use (95_test_vectors.md §3). -/
def Config.sample : Config where
  bufSize := 1024
  regBase := 0
  bufBase := 0x1000

/-- The value the entropy port answers to the draw of this number (10_state.md R46): FREE, under no law, so it has no body
(assumption 2). Two draws may be equal and a draw may be 0. -/
opaque Config.entropyDraw : Nat → Word

end Sys2Proof
end

