-- ==== Sys2Proof/Machine/State.lean ====
section
/-!
DEFINITION. The state of one WSFC instance (10_state.md R20, R47), the transactions a host can issue, and the reasons a step
stops without a next state (00_scope.md R13).
-/

namespace Sys2Proof.Machine

/-- The model faults. -/
inductive Fault where
  /-- A command or the host reads a buffer byte that was never written since reset (20_memory.md R63). SAFE: the hardware
  goes on with some byte. Raised by `State.readByte` and every read built from it. -/
  | unwrittenByte (addr : Nat)
deriving DecidableEq, Repr

/-- The refusals: an instruction without a meaning, and the host refusals of 60_exceptions.md R239. -/
inductive Refusal where
  /-- An instruction whose meaning is not written yet; `exec` alone may answer it. SAFE. -/
  | notModelled (mnemonic : String)
  /-- A register access that is not 32 bits wide at a multiple of 4 below 0x100 (10_state.md R21). SAFE: the spec gives it
  no successor state. Raised by `hostWrite` and `hostRead`. -/
  | registerAccess (off bits : Nat)
  /-- A buffer access of the host that reaches an address not below BUF_SIZE (20_memory.md R62). SAFE. Raised by the four
  buffer transactions. -/
  | bufferAddress (addr : Nat)
  /-- A 32-bit buffer access of the host at no multiple of 4 (20_memory.md R62). SAFE. Raised by the wide transactions. -/
  | bufferMisaligned (addr : Nat)
  /-- A platform access to the buffer window that is neither 8 nor 32 bits wide: the spec defines no other (20_memory.md
  R62; assumption 10). SAFE. Raised by the platform transactions. -/
  | bufferWidth (bits : Nat)
  /-- A platform access in neither window: not an access to the WSFC (20_memory.md R64; assumption 4). SAFE. Raised by the
  platform transactions. -/
  | outsideWindows (addr : Nat)
deriving DecidableEq, Repr

/-- What a host can do to the block: one of these is one step (20_memory.md R73). -/
inductive HostOp where
  /-- A write of the register window: offset, width in bits, value (10_state.md R21). -/
  | regWrite (off bits : Nat) (v : Word)
  /-- A read of the register window: offset, width in bits. -/
  | regRead (off bits : Nat)
  /-- `HostWriteBuf(a, b)` (20_memory.md R62). -/
  | bufWrite (a : Nat) (b : Byte)
  /-- `HostReadBuf(a)`. -/
  | bufRead (a : Nat)
  /-- The 32-bit `HostWriteBuf`, little-endian lanes. -/
  | bufWriteWide (a : Nat) (v : Word)
  /-- The 32-bit `HostReadBuf`, little-endian lanes. -/
  | bufReadWide (a : Nat)
  /-- A write at an address of the platform's map (20_memory.md R64): address, width in bits, value. -/
  | platformWrite (addr bits : Nat) (v : Word)
  /-- A read at an address of the platform's map. -/
  | platformRead (addr bits : Nat)
  /-- Reset asserted and released (70_reset_and_hazards.md R280). -/
  | reset
deriving DecidableEq, Repr

/-- What the block answers to a transaction: a read returns a value (10_state.md R21, 20_memory.md R62). -/
inductive Reply where
  | nothing
  | word (v : Word)
  | byte (b : Byte)
deriving DecidableEq, Repr

/-- BUF as the list of its written bytes (20_memory.md R60): addresses strictly rising, an unlisted address is unwritten. -/
abbrev Memory := List Host.Cell

/-- The architectural state of 10_state.md R20, with the parameters of the machine and the model's own fields. ID and CMD
hold no state (R22, R28). -/
structure State where
  /-- The OPEN parameters, which no step changes (00_scope.md R7). -/
  cfg : Config
  /-- CTRL (10_state.md R23). -/
  ctrl : Word
  /-- STATUS (R29). -/
  status : Word
  /-- SRC_ADDR (R31). -/
  srcAddr : Word
  /-- SRC_LEN (R32). -/
  srcLen : Word
  /-- DST_ADDR (R33). -/
  dstAddr : Word
  /-- DST_CAP (R34). -/
  dstCap : Word
  /-- AUX_ADDR (R35). -/
  auxAddr : Word
  /-- AUX_LEN (R36). -/
  auxLen : Word
  /-- MASKKEY (R39). -/
  maskKey : Word
  /-- R_FRAME (R41). -/
  rFrame : Word
  /-- R_PAYLEN_LO (R43). -/
  rPaylenLo : Word
  /-- R_PAYLEN_HI (R43). -/
  rPaylenHi : Word
  /-- R_CONSUMED (R44). -/
  rConsumed : Word
  /-- R_NEED_LO (R45). -/
  rNeedLo : Word
  /-- R_NEED_HI (R45). -/
  rNeedHi : Word
  /-- BUF (20_memory.md R60). -/
  buf : Memory
  /-- The model's own: how many draws the entropy port has answered (assumption 2). -/
  draws : Nat
  /-- The model's own: the host's transactions not yet served, oldest first (assumption 1). -/
  pending : List HostOp
  /-- The model's own: the answer to the transaction served last (assumption 5). -/
  reply : Reply
deriving DecidableEq, Repr

/-- The state after reset of a machine with parameters `c` (70_reset_and_hazards.md R280, R281); the number of draws taken
and the transactions still to come are no state of the block, so reset leaves them. -/
def State.afterReset (c : Config) (draws : Nat) (pending : List HostOp) : State where
  cfg := c
  ctrl := 0x00000003
  status := 0
  srcAddr := 0
  srcLen := 0
  dstAddr := 0
  dstCap := 0
  auxAddr := 0
  auxLen := 0
  maskKey := 0
  rFrame := 0
  rPaylenLo := 0
  rPaylenHi := 0
  rConsumed := 0
  rNeedLo := 0
  rNeedHi := 0
  buf := []
  draws := draws
  pending := pending
  reply := .nothing

/-- The machine right after reset, with no transaction issued yet (70_reset_and_hazards.md R280). -/
def State.reset : State := State.afterReset Config.sample 0 []

end Sys2Proof.Machine
end

