-- ==== Sys2Proof/Machine/Flags.lean ====
section
/-!
DEFINITION. The status flags (10_state.md R50): the RESULT and CAUSE codes of 60_exceptions.md R231-R235 with the STATUS
word of an outcome (R236), the R_FRAME word with HV and LV (10_state.md R41), and the mode bits of CTRL (R23).
-/

namespace Sys2Proof.Machine

/-- The RESULT codes (60_exceptions.md R231). -/
inductive Result where
  | none
  | ok
  | needMore
  | protocolError
  | handshakeFailed
  | cmdError
deriving DecidableEq, Repr

/-- The 4-bit code of a RESULT (60_exceptions.md R231). -/
def resultCode : Result → BitVec 4
  | .none => 0x0
  | .ok => 0x1
  | .needMore => 0x2
  | .protocolError => 0x3
  | .handshakeFailed => 0x4
  | .cmdError => 0x5

/-- The causes of 60_exceptions.md R232-R235, in the order of those tables. -/
inductive Cause where
  | rsvNonzero
  | reservedOpcode
  | maskedServerFrame
  | controlNotFin
  | controlTooLong
  | lengthMsbSet
  | nonMinimalLength
  | statusNot101
  | duplicateHeader
  | upgradeBad
  | connectionBad
  | acceptMissing
  | acceptMismatch
  | illegalCommand
  | reservedCmdBits
  | regionOutOfRange
  | regionOverlap
  | dstTooSmall
  | encBadOpcode
  | encControlNotFin
  | encControlTooLong
  | encUnmaskedClientFrame
  | auxEmpty
  | needBaseHeader
  | needExtLen
  | needMaskKey
  | needPayload
  | needHeaderEnd
deriving DecidableEq, Repr

/-- The 8-bit code of a CAUSE (60_exceptions.md R232-R235). -/
def causeCode : Cause → BitVec 8
  | .rsvNonzero => 0x01
  | .reservedOpcode => 0x02
  | .maskedServerFrame => 0x03
  | .controlNotFin => 0x04
  | .controlTooLong => 0x05
  | .lengthMsbSet => 0x06
  | .nonMinimalLength => 0x07
  | .statusNot101 => 0x10
  | .duplicateHeader => 0x11
  | .upgradeBad => 0x12
  | .connectionBad => 0x13
  | .acceptMissing => 0x14
  | .acceptMismatch => 0x15
  | .illegalCommand => 0x20
  | .reservedCmdBits => 0x21
  | .regionOutOfRange => 0x22
  | .regionOverlap => 0x23
  | .dstTooSmall => 0x24
  | .encBadOpcode => 0x25
  | .encControlNotFin => 0x26
  | .encControlTooLong => 0x27
  | .encUnmaskedClientFrame => 0x28
  | .auxEmpty => 0x29
  | .needBaseHeader => 0x30
  | .needExtLen => 0x31
  | .needMaskKey => 0x32
  | .needPayload => 0x33
  | .needHeaderEnd => 0x34

/-- The RESULT whose table a cause stands in: a cause is written only with it (60_exceptions.md R236). -/
def causeResult : Cause → Result
  | .rsvNonzero | .reservedOpcode | .maskedServerFrame | .controlNotFin | .controlTooLong | .lengthMsbSet
  | .nonMinimalLength => .protocolError
  | .statusNot101 | .duplicateHeader | .upgradeBad | .connectionBad | .acceptMissing | .acceptMismatch => .handshakeFailed
  | .illegalCommand | .reservedCmdBits | .regionOutOfRange | .regionOverlap | .dstTooSmall | .encBadOpcode
  | .encControlNotFin | .encControlTooLong | .encUnmaskedClientFrame | .auxEmpty => .cmdError
  | .needBaseHeader | .needExtLen | .needMaskKey | .needPayload | .needHeaderEnd => .needMore

/-- STATUS after `finish(r, c)`: r | c<<8, BUSY and every reserved bit 0 (60_exceptions.md R236, 10_state.md R29). -/
def statusWord (r : Result) (c : BitVec 8) : Word := (0 : BitVec 16) ++ c ++ (0 : BitVec 4) ++ resultCode r

/-- STATUS of a command that ends OK: cause 0 (10_state.md R29). -/
def statusOk : Word := statusWord .ok 0

/-- STATUS of a command that ends with a cause. -/
def statusOf (c : Cause) : Word := statusWord (causeResult c) (causeCode c)

/-- STATUS.RESULT, bits 3:0 (10_state.md R29). -/
def statusResult (w : Word) : BitVec 4 := w.extractLsb' 0 4

/-- STATUS.CAUSE, bits 15:8 (10_state.md R29). -/
def statusCause (w : Word) : BitVec 8 := w.extractLsb' 8 8

/-- STATUS.BUSY, bit 16 (10_state.md R30). -/
def statusBusy (w : Word) : Bool := w.getLsbD 16

/-- The R_FRAME word with HV = 1 (10_state.md R41): reserved 31:22, LV 21, HV 20, HDRLEN 19:16, LEN7 15:9, MASKED 8, FIN 7,
RSV 6:4, OPCODE 3:0. -/
def frameWord (op : BitVec 4) (rsv : BitVec 3) (fin masked : Bool) (len7 : BitVec 7) (hdrLen : Nat) (lv : Bool) : Word :=
  (0 : BitVec 10) ++ BitVec.ofBool lv ++ BitVec.ofBool true ++ BitVec.ofNat 4 hdrLen ++ len7 ++ BitVec.ofBool masked
    ++ BitVec.ofBool fin ++ rsv ++ op

/-- R_FRAME.HV, bit 20 (10_state.md R42). -/
def frameHV (w : Word) : Bool := w.getLsbD 20

/-- R_FRAME.LV, bit 21 (10_state.md R42). -/
def frameLV (w : Word) : Bool := w.getLsbD 21

/-- CTRL.CLIENT, bit 0 (10_state.md R24). -/
def ctrlClient (w : Word) : Bool := w.getLsbD 0

/-- CTRL.STRICT_LEN, bit 1 (10_state.md R25). -/
def ctrlStrictLen (w : Word) : Bool := w.getLsbD 1

/-- CTRL.KEYSRC, bit 2 (10_state.md R26). -/
def ctrlKeySrc (w : Word) : Bool := w.getLsbD 2

/-- What a HostWrite of v leaves in CTRL: bits 31:3 are reserved, read 0 and ignore writes (10_state.md R27). -/
def ctrlWritten (v : Word) : Word := v &&& 0x00000007

end Sys2Proof.Machine
end

