-- ==== Sys2Proof/Syntax.lean ====
section
/-!
DEFINITION. The instructions: one constructor for each mnemonic of spec/opcode_table.json, and the three kinds of encoded
words the table has (formats cmd32, frame_b0, frame_b1).
-/

namespace Sys2Proof

/-- One constructor for each mnemonic of the opcode table. The eleven ILLEGAL rows are the forms of one constructor, which
carries the written word (40_dispatch.md R121). The frame rows carry the fields of their byte (30_encoding.md R86, R87):
FIN and the 3-bit RSV of byte 0, MASK and len7 of byte 1. -/
inductive Instr where
  /-- DECODE (41_decode.md R140). -/
  | decode
  /-- ENCODE with its three command-word fields (42_encode.md R170). -/
  | encode (fop : BitVec 4) (fin msk : Bool)
  /-- MASK (43_mask.md R190). -/
  | mask
  /-- VALIDATE (44_validate.md R200). -/
  | validate
  /-- CLEAR (40_dispatch.md R126). -/
  | clear
  /-- A word that is no command (40_dispatch.md R121): an unassigned CMDOP, or a reserved bit set. -/
  | illegal (word : Word)
  /-- Frame opcode 0x0 (30_encoding.md R88). -/
  | frameContinuation (fin : Bool) (rsv : BitVec 3)
  /-- Frame opcode 0x1. -/
  | frameText (fin : Bool) (rsv : BitVec 3)
  /-- Frame opcode 0x2. -/
  | frameBinary (fin : Bool) (rsv : BitVec 3)
  /-- Frame opcode 0x3, reserved (30_encoding.md R95). -/
  | frameReserved3 (fin : Bool) (rsv : BitVec 3)
  /-- Frame opcode 0x4, reserved. -/
  | frameReserved4 (fin : Bool) (rsv : BitVec 3)
  /-- Frame opcode 0x5, reserved. -/
  | frameReserved5 (fin : Bool) (rsv : BitVec 3)
  /-- Frame opcode 0x6, reserved. -/
  | frameReserved6 (fin : Bool) (rsv : BitVec 3)
  /-- Frame opcode 0x7, reserved. -/
  | frameReserved7 (fin : Bool) (rsv : BitVec 3)
  /-- Frame opcode 0x8 (30_encoding.md R88). -/
  | frameClose (fin : Bool) (rsv : BitVec 3)
  /-- Frame opcode 0x9. -/
  | framePing (fin : Bool) (rsv : BitVec 3)
  /-- Frame opcode 0xA. -/
  | framePong (fin : Bool) (rsv : BitVec 3)
  /-- Frame opcode 0xB, reserved. -/
  | frameReservedB (fin : Bool) (rsv : BitVec 3)
  /-- Frame opcode 0xC, reserved. -/
  | frameReservedC (fin : Bool) (rsv : BitVec 3)
  /-- Frame opcode 0xD, reserved. -/
  | frameReservedD (fin : Bool) (rsv : BitVec 3)
  /-- Frame opcode 0xE, reserved. -/
  | frameReservedE (fin : Bool) (rsv : BitVec 3)
  /-- Frame opcode 0xF, reserved. -/
  | frameReservedF (fin : Bool) (rsv : BitVec 3)
  /-- Byte 1 of a frame (30_encoding.md R87). -/
  | frameB1 (masked : Bool) (len7 : BitVec 7)
deriving DecidableEq, Repr

/-- What an instruction is read from: a command word (format cmd32), byte 0 of a frame (frame_b0) or byte 1 (frame_b1).
The formats overlap as bits, so the place a value stands in says which one it is. -/
inductive Code where
  | command (w : Word)
  | byte0 (b : Byte)
  | byte1 (b : Byte)
deriving DecidableEq, Repr

end Sys2Proof
end

