-- ==== Sys2Proof/WellFormed.lean ====
section
/-!
DEFINITION. Which instructions are well formed, stated with the match and mask of the opcode table and not with the
decoder, so that the decoder can be held against it.
-/

namespace Sys2Proof

/-- The word is one of the five command rows of the opcode table, by its match and mask. -/
def legalWord (w : Word) : Bool :=
  w == 0x00000001 || w &&& 0xFFFFC0FF == 0x00000002 || w == 0x00000003 || w == 0x00000004 || w == 0x0000000F

/-- Every instruction is well formed but `illegal w` for a word w that is a command: an illegal word is one that matches no
command row (40_dispatch.md R121). A reserved FOP is no ill-formed ENCODE: the word is legal (30_encoding.md R84). -/
def Instr.wellFormed : Instr → Bool
  | .illegal w => !legalWord w
  | .decode | .encode _ _ _ | .mask | .validate | .clear => true
  | .frameContinuation _ _ | .frameText _ _ | .frameBinary _ _ => true
  | .frameReserved3 _ _ | .frameReserved4 _ _ | .frameReserved5 _ _ | .frameReserved6 _ _ | .frameReserved7 _ _ => true
  | .frameClose _ _ | .framePing _ _ | .framePong _ _ => true
  | .frameReservedB _ _ | .frameReservedC _ _ | .frameReservedD _ _ | .frameReservedE _ _ | .frameReservedF _ _ => true
  | .frameB1 _ _ => true

end Sys2Proof
end

