-- ==== Sys2Proof/Decode.lean ====
section
/-!
DEFINITION. The decoder (30_encoding.md R80-R84 for command words, R86-R88 for frame bytes), total on every word and byte,
and the encoder from the same tables.
-/

namespace Sys2Proof

/-- CMDOP, bits 3:0 of a command word (30_encoding.md R80). -/
def cmdop (v : Word) : BitVec 4 := v.extractLsb' 0 4

/-- The two ways a word is no command, in the order they are tested (30_encoding.md R84, R98). -/
inductive IllegalWord where
  /-- CMDOP is 0x0 or 0x5-0xE. -/
  | illegalCommand
  /-- CMDOP is assigned and a bit of its reserved mask is set. -/
  | reservedCmdBits
deriving DecidableEq, Repr

/-- The CMDOP values that name a command (30_encoding.md R81). -/
def cmdopAssigned (op : BitVec 4) : Bool :=
  op == 0x1 || op == 0x2 || op == 0x3 || op == 0x4 || op == 0xF

/-- The reserved mask of a word with an assigned CMDOP (30_encoding.md R83). -/
def reservedMask (op : BitVec 4) : Word := if op = 0x2 then 0xFFFFC0F0 else 0xFFFFFFF0

/-- `decodeCmd` of 30_encoding.md R84: the command of a word, or the reason it is none. -/
def decodeCmd (v : Word) : Except IllegalWord Instr :=
  if cmdopAssigned (cmdop v) = false then .error .illegalCommand
  else if v &&& reservedMask (cmdop v) ≠ 0 then .error .reservedCmdBits
  else if cmdop v = 0x1 then .ok .decode
  else if cmdop v = 0x2 then .ok (.encode (v.extractLsb' 8 4) (v.getLsbD 12) (v.getLsbD 13))
  else if cmdop v = 0x3 then .ok .mask
  else if cmdop v = 0x4 then .ok .validate
  else .ok .clear

/-- The instruction a command word is: its command, or `illegal` with the word (40_dispatch.md R120, R121). -/
def decodeWord (v : Word) : Instr :=
  match decodeCmd v with
  | .ok i => i
  | .error _ => .illegal v

/-- Byte 0 of a frame from its fields (30_encoding.md R86): FIN 7, RSV 6:4, opcode 3:0. -/
def byte0Of (op : BitVec 4) (fin : Bool) (rsv : BitVec 3) : Byte := BitVec.ofBool fin ++ rsv ++ op

/-- Byte 1 of a frame from its fields (30_encoding.md R87): MASK 7, len7 6:0. -/
def byte1Of (masked : Bool) (len7 : BitVec 7) : Byte := BitVec.ofBool masked ++ len7

/-- FIN, byte 0 bit 7 (30_encoding.md R86). -/
def byte0Fin (b : Byte) : Bool := b.getLsbD 7

/-- RSV, byte 0 bits 6:4 (30_encoding.md R86). -/
def byte0Rsv (b : Byte) : BitVec 3 := b.extractLsb' 4 3

/-- The frame opcode, byte 0 bits 3:0 (30_encoding.md R86). -/
def byte0Op (b : Byte) : BitVec 4 := b.extractLsb' 0 4

/-- MASK, byte 1 bit 7 (30_encoding.md R87). -/
def byte1Masked (b : Byte) : Bool := b.getLsbD 7

/-- len7, byte 1 bits 6:0 (30_encoding.md R87). -/
def byte1Len7 (b : Byte) : BitVec 7 := b.extractLsb' 0 7

/-- The row of the opcode table a byte 0 is, by its opcode (30_encoding.md R88, R95). -/
def decodeByte0 (b : Byte) : Instr :=
  match (byte0Op b).toNat with
  | 0x0 => .frameContinuation (byte0Fin b) (byte0Rsv b)
  | 0x1 => .frameText (byte0Fin b) (byte0Rsv b)
  | 0x2 => .frameBinary (byte0Fin b) (byte0Rsv b)
  | 0x3 => .frameReserved3 (byte0Fin b) (byte0Rsv b)
  | 0x4 => .frameReserved4 (byte0Fin b) (byte0Rsv b)
  | 0x5 => .frameReserved5 (byte0Fin b) (byte0Rsv b)
  | 0x6 => .frameReserved6 (byte0Fin b) (byte0Rsv b)
  | 0x7 => .frameReserved7 (byte0Fin b) (byte0Rsv b)
  | 0x8 => .frameClose (byte0Fin b) (byte0Rsv b)
  | 0x9 => .framePing (byte0Fin b) (byte0Rsv b)
  | 0xA => .framePong (byte0Fin b) (byte0Rsv b)
  | 0xB => .frameReservedB (byte0Fin b) (byte0Rsv b)
  | 0xC => .frameReservedC (byte0Fin b) (byte0Rsv b)
  | 0xD => .frameReservedD (byte0Fin b) (byte0Rsv b)
  | 0xE => .frameReservedE (byte0Fin b) (byte0Rsv b)
  | _ => .frameReservedF (byte0Fin b) (byte0Rsv b)

/-- The row of the opcode table a byte 1 is: there is one (30_encoding.md R87). -/
def decodeByte1 (b : Byte) : Instr := .frameB1 (byte1Masked b) (byte1Len7 b)

/-- The decoder, total on every command word and every frame byte. -/
def decodeCode : Code → Instr
  | .command w => decodeWord w
  | .byte0 b => decodeByte0 b
  | .byte1 b => decodeByte1 b

/-- The command word of ENCODE (42_encode.md R170): 2, FOP in 11:8, FIN in 12, MSK in 13. -/
def encodeWord (fop : BitVec 4) (fin msk : Bool) : Word :=
  (0 : BitVec 18) ++ BitVec.ofBool msk ++ BitVec.ofBool fin ++ fop ++ (0 : BitVec 4) ++ (2 : BitVec 4)

/-- The encoder: the command word (30_encoding.md R100) or the frame byte (R86-R88) of an instruction. -/
def encode : Instr → Code
  | .decode => .command 0x00000001
  | .encode fop fin msk => .command (encodeWord fop fin msk)
  | .mask => .command 0x00000003
  | .validate => .command 0x00000004
  | .clear => .command 0x0000000F
  | .illegal w => .command w
  | .frameContinuation fin rsv => .byte0 (byte0Of 0x0 fin rsv)
  | .frameText fin rsv => .byte0 (byte0Of 0x1 fin rsv)
  | .frameBinary fin rsv => .byte0 (byte0Of 0x2 fin rsv)
  | .frameReserved3 fin rsv => .byte0 (byte0Of 0x3 fin rsv)
  | .frameReserved4 fin rsv => .byte0 (byte0Of 0x4 fin rsv)
  | .frameReserved5 fin rsv => .byte0 (byte0Of 0x5 fin rsv)
  | .frameReserved6 fin rsv => .byte0 (byte0Of 0x6 fin rsv)
  | .frameReserved7 fin rsv => .byte0 (byte0Of 0x7 fin rsv)
  | .frameClose fin rsv => .byte0 (byte0Of 0x8 fin rsv)
  | .framePing fin rsv => .byte0 (byte0Of 0x9 fin rsv)
  | .framePong fin rsv => .byte0 (byte0Of 0xA fin rsv)
  | .frameReservedB fin rsv => .byte0 (byte0Of 0xB fin rsv)
  | .frameReservedC fin rsv => .byte0 (byte0Of 0xC fin rsv)
  | .frameReservedD fin rsv => .byte0 (byte0Of 0xD fin rsv)
  | .frameReservedE fin rsv => .byte0 (byte0Of 0xE fin rsv)
  | .frameReservedF fin rsv => .byte0 (byte0Of 0xF fin rsv)
  | .frameB1 masked len7 => .byte1 (byte1Of masked len7)

/-- The place a table word of this many bits stands in: a row of at most 8 bits is read as byte 0 of a frame, a longer one
as a command word (assumption 11: the ILLEGAL rows fix 4 bits and the FRAME_B1 row 8, so neither can be told from a byte 0
by its width and bits alone). A word of more than 32 bits is no instruction. -/
def tableCode (nbits w : Nat) : Option Code :=
  if nbits ≤ 8 then some (.byte0 (BitVec.ofNat 8 w))
  else if nbits ≤ 32 then some (.command (BitVec.ofNat 32 w))
  else none

/-- The instruction the decoder reads from a word of the opcode table of `nbits` bits. -/
def decodeTableWord (nbits w : Nat) : Option Instr := (tableCode nbits w).map decodeCode

end Sys2Proof
end

