-- ==== Sys2Proof/Machine/Operands.lean ====
section
/-!
DEFINITION. The operand forms: regions with their range and overlap tests (20_memory.md R70), big-endian values (00_scope.md
R11), mask keys and the XOR kernel (10_state.md R40, 30_encoding.md R93), the frame header and its length forms (30_encoding.md
R86-R91), and the text functions of VALIDATE (00_scope.md R14, 44_validate.md R201).
-/

namespace Sys2Proof.Machine

/-! ## Regions -/

/-- A range [addr, addr + len) of buffer addresses (00_scope.md §6). -/
structure Region where
  addr : Nat
  len : Nat
deriving DecidableEq, Repr

/-- `inRange` of 20_memory.md R70: the exact sum lies in the buffer. -/
def inRange (bufSize : Nat) (r : Region) : Bool := decide (r.addr + r.len ≤ bufSize)

/-- `overlap` of 20_memory.md R70: both are non-empty and they share an address. -/
def overlap (r q : Region) : Bool :=
  decide (0 < r.len ∧ 0 < q.len ∧ r.addr < q.addr + q.len ∧ q.addr < r.addr + r.len)

/-- The source region (10_state.md R31, R32). -/
def srcRegion (s : State) : Region := ⟨s.srcAddr.toNat, s.srcLen.toNat⟩

/-- The destination region at its full capacity (10_state.md R33, R34; 40_dispatch.md R123). -/
def dstRegion (s : State) : Region := ⟨s.dstAddr.toNat, s.dstCap.toNat⟩

/-- The auxiliary region (10_state.md R35, R36). -/
def auxRegion (s : State) : Region := ⟨s.auxAddr.toNat, s.auxLen.toNat⟩

/-! ## Big-endian values -/

/-- `BE(s)` of 00_scope.md R11: the number whose big-endian bytes are `bs`. -/
def beValue (bs : List Byte) : Nat := bs.foldl (fun acc b => acc * 256 + b.toNat) 0

/-- `BEbytes(v, n)` of 00_scope.md R11: the n bytes of v, most significant first. -/
def beBytes (v : Nat) : Nat → List Byte
  | 0 => []
  | n + 1 => BitVec.ofNat 8 (v / 256 ^ n) :: beBytes v n

/-- Bits 31:0 of a 64-bit count (10_state.md R43, R45). -/
def lowWord (n : Nat) : Word := BitVec.ofNat 32 n

/-- Bits 63:32 of a 64-bit count (10_state.md R43, R45). -/
def highWord (n : Nat) : Word := BitVec.ofNat 32 (n / 0x100000000)

/-! ## Mask keys -/

/-- Key byte j of a key word, MASKKEY[31−8j : 24−8j], taken at j mod 4 (10_state.md R40, 30_encoding.md R93). -/
def keyByte (k : Word) (j : Nat) : Byte := k.extractLsb' (24 - 8 * (j % 4)) 8

/-- The kernel from phase j on: byte i of the list is XORed with key byte (j + i) mod 4. -/
def xorFrom (k : Word) : Nat → List Byte → List Byte
  | _, [] => []
  | j, b :: bs => (b ^^^ keyByte k j) :: xorFrom k (j + 1) bs

/-- `xorMask(k, s)` of 30_encoding.md R93: the phase starts at key byte 0. -/
def xorMask (k : Word) (bs : List Byte) : List Byte := xorFrom k 0 bs

/-- The four key bytes in wire order, `BEbytes(k, 4)` (10_state.md R40, 30_encoding.md R92). -/
def keyBytes (k : Word) : List Byte := beBytes k.toNat 4

/-- The key word of four wire bytes, `BE(k)` (10_state.md R40). -/
def keyWord (bs : List Byte) : Word := BitVec.ofNat 32 (beValue bs)

/-- A payload masked under the key, if there is one (41_decode.md R153, 42_encode.md R178). -/
def maskedWith (key : Option Word) (bs : List Byte) : List Byte :=
  match key with
  | some k => xorMask k bs
  | none => bs

/-! ## Frame headers -/

/-- `isControl(op) := op[3]` (30_encoding.md R88). -/
def isControl (op : BitVec 4) : Bool := op.getLsbD 3

/-- `isReserved(op)`: 0x3-0x7 and 0xB-0xF (30_encoding.md R88). -/
def isReserved (op : BitVec 4) : Bool :=
  decide ((0x3 ≤ op.toNat ∧ op.toNat ≤ 0x7) ∨ (0xB ≤ op.toNat ∧ op.toNat ≤ 0xF))

/-- `extLen(len7)` of 30_encoding.md R90. -/
def extLen (len7 : BitVec 7) : Nat := if len7 = 126 then 2 else if len7 = 127 then 8 else 0

/-- The header length H of 30_encoding.md R90. -/
def headerLen (len7 : BitVec 7) (masked : Bool) : Nat := 2 + extLen len7 + (if masked then 4 else 0)

/-- The fields of bytes 0 and 1 of a frame (30_encoding.md R86, R87). -/
structure FrameHeader where
  op : BitVec 4
  rsv : BitVec 3
  fin : Bool
  masked : Bool
  len7 : BitVec 7
deriving DecidableEq, Repr

/-- The fields of two bytes (41_decode.md R143). -/
def headerOf (b0 b1 : Byte) : FrameHeader where
  op := byte0Op b0
  rsv := byte0Rsv b0
  fin := byte0Fin b0
  masked := byte1Masked b1
  len7 := byte1Len7 b1

/-- The base length field ENCODE chooses for a payload length (42_encode.md R173). -/
def encodeLen7 (l : Nat) : BitVec 7 := if l ≤ 125 then BitVec.ofNat 7 l else if l ≤ 65535 then 126 else 127

/-- The extended length bytes ENCODE writes for a payload length (42_encode.md R173). -/
def encodeExt (l : Nat) : List Byte := if l ≤ 125 then [] else if l ≤ 65535 then beBytes l 2 else beBytes l 8

/-! ## Text -/

/-- CR (00_scope.md R14). -/
def chCR : Byte := 0x0D
/-- LF. -/
def chLF : Byte := 0x0A
/-- SP. -/
def chSP : Byte := 0x20
/-- HT. -/
def chHT : Byte := 0x09
/-- ':'. -/
def chColon : Byte := 0x3A

/-- "HTTP/1.1 101" (44_validate.md R206). -/
def txtStatus : List Byte := [0x48, 0x54, 0x54, 0x50, 0x2F, 0x31, 0x2E, 0x31, 0x20, 0x31, 0x30, 0x31]
/-- "Upgrade" (44_validate.md R207). -/
def txtUpgrade : List Byte := [0x55, 0x70, 0x67, 0x72, 0x61, 0x64, 0x65]
/-- "Connection". -/
def txtConnection : List Byte := [0x43, 0x6F, 0x6E, 0x6E, 0x65, 0x63, 0x74, 0x69, 0x6F, 0x6E]
/-- "Sec-WebSocket-Accept". -/
def txtAccept : List Byte :=
  [0x53, 0x65, 0x63, 0x2D, 0x57, 0x65, 0x62, 0x53, 0x6F, 0x63, 0x6B, 0x65, 0x74, 0x2D, 0x41, 0x63, 0x63, 0x65, 0x70, 0x74]
/-- "websocket". -/
def txtWebsocket : List Byte := [0x77, 0x65, 0x62, 0x73, 0x6F, 0x63, 0x6B, 0x65, 0x74]

/-- `lower(b)` of 00_scope.md R14: 0x41-0x5A to b + 0x20, every other byte unchanged. -/
def lower (b : Byte) : Byte := if 0x41 ≤ b.toNat ∧ b.toNat ≤ 0x5A then b + 0x20 else b

/-- `ieq(s, t)` of 00_scope.md R14. -/
def ieq (p q : List Byte) : Bool := p.map lower == q.map lower

/-- The CR LF CR LF that ends the header block (44_validate.md R202). -/
def headerEnd : List Byte := [chCR, chLF, chCR, chLF]

/-- The smallest index at which `headerEnd` stands in the list (44_validate.md R201 step 1). -/
def findHeaderEnd : List Byte → Option Nat
  | [] => none
  | b :: bs => if headerEnd.isPrefixOf (b :: bs) then some 0 else (findHeaderEnd bs).map (· + 1)

/-- The byte put before the first piece. -/
def consFirst (b : Byte) : List (List Byte) → List (List Byte)
  | [] => [[b]]
  | l :: ls => (b :: l) :: ls

/-- `split(B, CR LF)` of 44_validate.md R201: cut at every CR LF, from the left, no overlap; k cuts give k + 1 pieces. -/
def splitLines : List Byte → List (List Byte)
  | [] => [[]]
  | [b] => [[b]]
  | a :: b :: bs => if a = chCR ∧ b = chLF then [] :: splitLines bs else consFirst a (splitLines (b :: bs))

/-- The status-line test of 44_validate.md R206. -/
def statusLineOk (l : List Byte) : Bool :=
  txtStatus.isPrefixOf l && (l.length == 12 || l[12]? == some chSP)

/-- A byte `trimOWS` removes: SP or HT (44_validate.md R207). -/
def isOWS (b : Byte) : Bool := b == chSP || b == chHT

/-- `trimOWS` of 44_validate.md R201: leading and trailing SP and HT removed. -/
def trimOWS (l : List Byte) : List Byte := ((l.dropWhile isOWS).reverse.dropWhile isOWS).reverse

/-- A header field of a line: the name before the first ':' and the trimmed value after it; none for a line without ':'
(44_validate.md R203, R207). -/
def headerField (l : List Byte) : Option (List Byte × List Byte) :=
  if l.contains chColon then
    some (l.takeWhile (· != chColon), trimOWS ((l.dropWhile (· != chColon)).drop 1))
  else none

/-- The header fields of the block, lines after the status line (44_validate.md R201 step 4). -/
def headerFields (lines : List (List Byte)) : List (List Byte × List Byte) := (lines.drop 1).filterMap headerField

/-- The values of the fields with this name (44_validate.md R207). -/
def valuesOf (name : List Byte) (fields : List (List Byte × List Byte)) : List (List Byte) :=
  (fields.filter fun f => ieq f.1 name).map (·.2)

end Sys2Proof.Machine
end

