-- ==== Sys2Proof/Machine/Ops.lean ====
section
/-!
DEFINITION. The named operations: BUF (00_scope.md R11, 20_memory.md R60-R63), the register file by name and offset
(10_state.md R47), ending a command (00_scope.md R12; it is what this machine has in place of taking an exception,
60_exceptions.md R230, R242), clearing the outcome registers (40_dispatch.md R122), the prologue (R123-R125) and the draw
(10_state.md R46).
-/

namespace Sys2Proof.Machine

/-- The outcome of a meaning or of a step. -/
abbrev Out := Host.Outcome State Fault Refusal

/-! ## BUF -/

/-- The byte an address holds, none where it is unwritten (20_memory.md R60). -/
def Memory.read : Memory → Nat → Option Byte
  | [], _ => none
  | (a', b) :: m, a => if a' = a then some b else Memory.read m a

/-- `MemWrite(a, 1, b)` (00_scope.md R11); the list stays in rising order. -/
def Memory.write : Memory → Nat → Byte → Memory
  | [], a, b => [(a, b)]
  | (a', b') :: m, a, b =>
    if a < a' then (a, b) :: (a', b') :: m
    else if a = a' then (a, b) :: m
    else (a', b') :: Memory.write m a b

/-- `MemWrite(a, n, s)` (00_scope.md R11): the bytes in order from a. -/
def Memory.writeBytes : Memory → Nat → List Byte → Memory
  | m, _, [] => m
  | m, a, b :: bs => Memory.writeBytes (m.write a b) (a + 1) bs

/-- The canonical form: addresses strictly rising. (An unlisted address holds no byte, so no entry can equal it.) -/
def Memory.wf : Memory → Bool
  | [] => true
  | [_] => true
  | (a, _) :: (a', b') :: m => decide (a < a') && Memory.wf ((a', b') :: m)

/-- Every written byte lies below the buffer's size (20_memory.md R60). -/
def Memory.below (bufSize : Nat) (m : Memory) : Bool := m.all fun c => decide (c.1 < bufSize)

/-- `MemRead(a, 1)`; an unwritten byte is a model fault (20_memory.md R63). -/
def State.readByte (s : State) (a : Nat) : Except Fault Byte :=
  match s.buf.read a with
  | some b => .ok b
  | none => .error (.unwrittenByte a)

/-- `MemRead(a, n)` (00_scope.md R11): the bytes in rising order; the first unwritten one is the fault. -/
def State.readBytes (s : State) (a : Nat) : Nat → Except Fault (List Byte)
  | 0 => .ok []
  | n + 1 =>
    match s.readByte a with
    | .error f => .error f
    | .ok b =>
      match s.readBytes (a + 1) n with
      | .error f => .error f
      | .ok bs => .ok (b :: bs)

/-- The written bytes from a on, up to the first unwritten one or n of them. -/
def State.writtenPrefix (s : State) (a : Nat) : Nat → List Byte
  | 0 => []
  | n + 1 =>
    match s.buf.read a with
    | none => []
    | some b => b :: s.writtenPrefix (a + 1) n

/-- Go on with what a read answers, or stop with its fault (00_scope.md R13). -/
def reading {α : Type} (r : Except Fault α) (k : α → Out) : Out :=
  match r with
  | .ok x => k x
  | .error f => .fault f

/-! ## Register updates -/

def State.setStatus (s : State) (w : Word) : State := { s with status := w }

def State.setFrame (s : State) (w : Word) : State := { s with rFrame := w }

/-- R_PAYLEN_LO and R_PAYLEN_HI from a 64-bit length (10_state.md R43). -/
def State.setPaylen (s : State) (l : Nat) : State := { s with rPaylenLo := lowWord l, rPaylenHi := highWord l }

/-- R_NEED_LO and R_NEED_HI from a 64-bit count (10_state.md R45). -/
def State.setNeed (s : State) (n : Nat) : State := { s with rNeedLo := lowWord n, rNeedHi := highWord n }

def State.setConsumed (s : State) (n : Nat) : State := { s with rConsumed := lowWord n }

def State.setMaskKey (s : State) (k : Word) : State := { s with maskKey := k }

def State.setDraws (s : State) (n : Nat) : State := { s with draws := n }

/-- `MemWrite` on the state's buffer. -/
def State.writeBuf (s : State) (a : Nat) (bs : List Byte) : State := { s with buf := s.buf.writeBytes a bs }

/-- `clearResults()` of 40_dispatch.md R122. -/
def State.clearResults (s : State) : State :=
  { s with rFrame := 0, rPaylenLo := 0, rPaylenHi := 0, rConsumed := 0, rNeedLo := 0, rNeedHi := 0 }

/-- The key a masked frame leaves in MASKKEY, none where the frame has no key (10_state.md R39). -/
def State.keepKey (s : State) (key : Option Word) : State :=
  match key with
  | some k => s.setMaskKey k
  | none => s

/-! ## Ending a command -/

/-- `finish(OK, 0)` (00_scope.md R12). -/
def finishOk (s : State) : Out := .next (s.setStatus statusOk)

/-- `finish` with a cause and the RESULT of the cause's table: `raise` and the end of `need` (00_scope.md R12). A command
never transfers control: nothing is saved and no mode changes (60_exceptions.md R230, R242). -/
def raise (c : Cause) (s : State) : Out := .next (s.setStatus (statusOf c))

/-- `need(c, n)` (00_scope.md R12): R_NEED holds n and the command ends in NEED_MORE. -/
def need (c : Cause) (n : Nat) (s : State) : Out := raise c (s.setNeed n)

/-! ## The prologue -/

/-- The region checks of 40_dispatch.md R123 and R124 in the order of R125, then the body: first region, second region,
then overlap where the command refuses it. -/
def withRegions (first second : Region) (overlapRefused : Bool) (body : State → Out) (s : State) : Out :=
  if inRange s.cfg.bufSize first = false then raise .regionOutOfRange s
  else if inRange s.cfg.bufSize second = false then raise .regionOutOfRange s
  else if overlapRefused = true then raise .regionOverlap s
  else body s

/-- The prologue of DECODE and ENCODE: SRC, DST, no overlap (40_dispatch.md R123, R124). -/
def withSrcDst (body : State → Out) (s : State) : Out :=
  withRegions (srcRegion s) (dstRegion s) (overlap (srcRegion s) (dstRegion s)) body s

/-- The prologue of MASK: as `withSrcDst`, but a region masked exactly in place passes (40_dispatch.md R124). -/
def withSrcDstInPlace (body : State → Out) (s : State) : Out :=
  withRegions (srcRegion s) (dstRegion s) (overlap (srcRegion s) (dstRegion s) && s.srcAddr != s.dstAddr) body s

/-- The prologue of VALIDATE: SRC, AUX, which may overlap (40_dispatch.md R123, R124). -/
def withSrcAux (body : State → Out) (s : State) : Out :=
  withRegions (srcRegion s) (auxRegion s) false body s

/-! ## The entropy port -/

/-- `draw32()`: the free value of the next draw, and the state in which it has been taken (10_state.md R46). -/
def State.draw (s : State) : Word × State := (Config.entropyDraw s.draws, s.setDraws (s.draws + 1))

/-! ## The register file -/

/-- The named registers of 10_state.md R47. -/
inductive Reg where
  | id
  | ctrl
  | cmd
  | status
  | srcAddr
  | srcLen
  | dstAddr
  | dstCap
  | auxAddr
  | auxLen
  | maskKey
  | rFrame
  | rPaylenLo
  | rPaylenHi
  | rConsumed
  | rNeedLo
  | rNeedHi
deriving DecidableEq, Repr

/-- The register at an offset, none for an offset without one (10_state.md R47). -/
def regAt (off : Nat) : Option Reg :=
  match off with
  | 0x00 => some .id
  | 0x04 => some .ctrl
  | 0x08 => some .cmd
  | 0x0C => some .status
  | 0x10 => some .srcAddr
  | 0x14 => some .srcLen
  | 0x18 => some .dstAddr
  | 0x1C => some .dstCap
  | 0x20 => some .auxAddr
  | 0x24 => some .auxLen
  | 0x28 => some .maskKey
  | 0x30 => some .rFrame
  | 0x34 => some .rPaylenLo
  | 0x38 => some .rPaylenHi
  | 0x3C => some .rConsumed
  | 0x40 => some .rNeedLo
  | 0x44 => some .rNeedHi
  | _ => none

/-- The value a register reads as; ID is hard-wired to "WSF1" (10_state.md R22) and CMD reads 0 (R28). -/
def State.readReg (s : State) : Reg → Word
  | .id => 0x57534631
  | .ctrl => s.ctrl
  | .cmd => 0
  | .status => s.status
  | .srcAddr => s.srcAddr
  | .srcLen => s.srcLen
  | .dstAddr => s.dstAddr
  | .dstCap => s.dstCap
  | .auxAddr => s.auxAddr
  | .auxLen => s.auxLen
  | .maskKey => s.maskKey
  | .rFrame => s.rFrame
  | .rPaylenLo => s.rPaylenLo
  | .rPaylenHi => s.rPaylenHi
  | .rConsumed => s.rConsumed
  | .rNeedLo => s.rNeedLo
  | .rNeedHi => s.rNeedHi

/-- What a read of an offset returns: an offset without a register reads 0 (10_state.md R38, R47). -/
def State.readOffset (s : State) (off : Nat) : Word :=
  match regAt off with
  | some r => s.readReg r
  | none => 0

/-- What a HostWrite does to the register itself: the RW registers take the value (CTRL its three mode bits), and every
other write has no effect (10_state.md R22, R27, R29, R38, R47). The command a write to CMD starts is not part of this. -/
def State.writeReg (s : State) (r : Reg) (v : Word) : State :=
  match r with
  | .ctrl => { s with ctrl := ctrlWritten v }
  | .srcAddr => { s with srcAddr := v }
  | .srcLen => { s with srcLen := v }
  | .dstAddr => { s with dstAddr := v }
  | .dstCap => { s with dstCap := v }
  | .auxAddr => { s with auxAddr := v }
  | .auxLen => { s with auxLen := v }
  | .maskKey => s.setMaskKey v
  | .id | .cmd | .status | .rFrame | .rPaylenLo | .rPaylenHi | .rConsumed | .rNeedLo | .rNeedHi => s

end Sys2Proof.Machine
end

