-- ==== Sys2Proof/Machine/Control.lean ====
section
/-!
DEFINITION. CLEAR (40_dispatch.md R126) and the illegal command words (R121).
-/

namespace Sys2Proof.Machine

/-- CLEAR (40_dispatch.md R126): STATUS and the six result registers to 0. -/
def execClear (s : State) : Out := .next (s.clearResults.setStatus 0)

/-- The cause of an illegal word: ILLEGAL_COMMAND for an unassigned CMDOP, otherwise RESERVED_CMD_BITS (40_dispatch.md
R121). -/
def illegalCause (w : Word) : Cause := if cmdopAssigned (cmdop w) = false then .illegalCommand else .reservedCmdBits

/-- An illegal command word (40_dispatch.md R121). -/
def execIllegal (w : Word) (s : State) : Out := raise (illegalCause w) s.clearResults

end Sys2Proof.Machine
end

