-- ==== Sys2Proof/Machine/FrameDecode.lean ====
section
/-!
DEFINITION. DECODE (41_decode.md R141) in its five steps, and the meanings of the frame rows of the opcode table (formats
frame_b0 and frame_b1): what DECODE does with a source region whose byte 0 (or byte 1) is that row's byte (assumption 6).
-/

namespace Sys2Proof.Machine

/-- The R_FRAME word of a decoded header (41_decode.md R143), HV = 1, LV as given. -/
def headerWord (h : FrameHeader) (lv : Bool) : Word :=
  frameWord h.op h.rsv h.fin h.masked h.len7 (headerLen h.len7 h.masked) lv

/-- The header length H of a frame (30_encoding.md R90). -/
def frameHdrLen (h : FrameHeader) : Nat := headerLen h.len7 h.masked

/-- Step 2: the first of the five checks on bytes 0 and 1 that fails (41_decode.md R144, R145). -/
def headerCheck (client : Bool) (h : FrameHeader) : Option Cause :=
  if h.rsv ≠ 0 then some .rsvNonzero
  else if isReserved h.op = true then some .reservedOpcode
  else if client = true ∧ h.masked = true then some .maskedServerFrame
  else if isControl h.op = true ∧ h.fin = false then some .controlNotFin
  else if isControl h.op = true ∧ 125 < h.len7.toNat then some .controlTooLong
  else none

/-- Step 3's checks on a length that has been read (41_decode.md R147, R148). -/
def lengthCheck (strict : Bool) (len7 : BitVec 7) (l : Nat) : Option Cause :=
  if len7 = 127 ∧ 0x8000000000000000 ≤ l then some .lengthMsbSet
  else if strict = true ∧ ((len7 = 126 ∧ l < 126) ∨ (len7 = 127 ∧ l < 65536)) then some .nonMinimalLength
  else none

/-- Step 5: the whole frame must be present and its payload fit (41_decode.md R150, R151); then it is copied, unmasked
under the key (R153). -/
def decodePayload (h : FrameHeader) (l : Nat) (key : Option Word) (s : State) : Out :=
  if s.srcLen.toNat < frameHdrLen h + l then need .needPayload (frameHdrLen h + l) s
  else if s.dstCap.toNat < l then raise .dstTooSmall s
  else reading (s.readBytes (s.srcAddr.toNat + frameHdrLen h) l) fun p =>
    finishOk (((s.writeBuf s.dstAddr.toNat (maskedWith key p)).keepKey key).setConsumed (frameHdrLen h + l))

/-- Step 4: the mask key of a masked frame (41_decode.md R149). -/
def decodeKey (h : FrameHeader) (l : Nat) (s : State) : Out :=
  if h.masked = false then decodePayload h l none s
  else if s.srcLen.toNat < frameHdrLen h then need .needMaskKey (frameHdrLen h) s
  else reading (s.readBytes (s.srcAddr.toNat + 2 + extLen h.len7) 4) fun k => decodePayload h l (some (keyWord k)) s

/-- The end of step 3: the length is recorded with LV = 1, then judged (41_decode.md R146-R148). -/
def decodeKnownLength (h : FrameHeader) (l : Nat) (s : State) : Out :=
  match lengthCheck (ctrlStrictLen s.ctrl) h.len7 l with
  | some c => raise c ((s.setPaylen l).setFrame (headerWord h true))
  | none => decodeKey h l ((s.setPaylen l).setFrame (headerWord h true))

/-- Step 3: the payload length from len7 or from the extended bytes (41_decode.md R146). -/
def decodeLength (h : FrameHeader) (s : State) : Out :=
  if h.len7.toNat ≤ 125 then decodeKnownLength h h.len7.toNat s
  else if s.srcLen.toNat < 2 + extLen h.len7 then need .needExtLen (2 + extLen h.len7) s
  else reading (s.readBytes (s.srcAddr.toNat + 2) (extLen h.len7)) fun e => decodeKnownLength h (beValue e) s

/-- Steps 1 and 2 once both bytes are known: R_FRAME is filled before any check (41_decode.md R143, R144). -/
def decodeHeader (h : FrameHeader) (s : State) : Out :=
  match headerCheck (ctrlClient s.ctrl) h with
  | some c => raise c (s.setFrame (headerWord h false))
  | none => decodeLength h (s.setFrame (headerWord h false))

/-- The DECODE body (41_decode.md R141) with what bytes 0 and 1 are read as; neither is looked at when fewer than two
source bytes are present (R142). -/
def decodeBody (r0 r1 : Except Fault Byte) (s : State) : Out :=
  if s.srcLen.toNat < 2 then need .needBaseHeader 2 s
  else reading r0 fun b0 => reading r1 fun b1 => decodeHeader (headerOf b0 b1) s

/-- What byte i of the source region is read as. -/
def State.readSrc (s : State) (i : Nat) : Except Fault Byte := s.readByte (s.srcAddr.toNat + i)

/-- The DECODE command (40_dispatch.md R120) with what bytes 0 and 1 of the source are read as. -/
def runDecode (r0 r1 : Except Fault Byte) (s : State) : Out := withSrcDst (decodeBody r0 r1) s.clearResults

/-- DECODE (41_decode.md R140). -/
def execDecode (s : State) : Out := runDecode (s.readSrc 0) (s.readSrc 1) s

/-- DECODE of a source region whose byte 0 has this frame opcode, FIN and RSV. -/
def runFrameByte0 (op : BitVec 4) (fin : Bool) (rsv : BitVec 3) (s : State) : Out :=
  runDecode (.ok (byte0Of op fin rsv)) (s.readSrc 1) s

/-- Continuation, 0x0: accepted (30_encoding.md R88). -/
def execFrameContinuation (fin : Bool) (rsv : BitVec 3) (s : State) : Out := runFrameByte0 0x0 fin rsv s

/-- Text, 0x1: accepted (30_encoding.md R88). -/
def execFrameText (fin : Bool) (rsv : BitVec 3) (s : State) : Out := runFrameByte0 0x1 fin rsv s

/-- Binary, 0x2: accepted (30_encoding.md R88). -/
def execFrameBinary (fin : Bool) (rsv : BitVec 3) (s : State) : Out := runFrameByte0 0x2 fin rsv s

/-- 0x3: PROTOCOL_ERROR RESERVED_OPCODE (30_encoding.md R95). -/
def execFrameReserved3 (fin : Bool) (rsv : BitVec 3) (s : State) : Out := runFrameByte0 0x3 fin rsv s

/-- 0x4: reserved (30_encoding.md R95). -/
def execFrameReserved4 (fin : Bool) (rsv : BitVec 3) (s : State) : Out := runFrameByte0 0x4 fin rsv s

/-- 0x5: reserved (30_encoding.md R95). -/
def execFrameReserved5 (fin : Bool) (rsv : BitVec 3) (s : State) : Out := runFrameByte0 0x5 fin rsv s

/-- 0x6: reserved (30_encoding.md R95). -/
def execFrameReserved6 (fin : Bool) (rsv : BitVec 3) (s : State) : Out := runFrameByte0 0x6 fin rsv s

/-- 0x7: reserved (30_encoding.md R95). -/
def execFrameReserved7 (fin : Bool) (rsv : BitVec 3) (s : State) : Out := runFrameByte0 0x7 fin rsv s

/-- Close, 0x8: a control frame (30_encoding.md R88). -/
def execFrameClose (fin : Bool) (rsv : BitVec 3) (s : State) : Out := runFrameByte0 0x8 fin rsv s

/-- Ping, 0x9: a control frame (30_encoding.md R88). -/
def execFramePing (fin : Bool) (rsv : BitVec 3) (s : State) : Out := runFrameByte0 0x9 fin rsv s

/-- Pong, 0xA: a control frame (30_encoding.md R88). -/
def execFramePong (fin : Bool) (rsv : BitVec 3) (s : State) : Out := runFrameByte0 0xA fin rsv s

/-- 0xB: reserved (30_encoding.md R95). -/
def execFrameReservedB (fin : Bool) (rsv : BitVec 3) (s : State) : Out := runFrameByte0 0xB fin rsv s

/-- 0xC: reserved (30_encoding.md R95). -/
def execFrameReservedC (fin : Bool) (rsv : BitVec 3) (s : State) : Out := runFrameByte0 0xC fin rsv s

/-- 0xD: reserved (30_encoding.md R95). -/
def execFrameReservedD (fin : Bool) (rsv : BitVec 3) (s : State) : Out := runFrameByte0 0xD fin rsv s

/-- 0xE: reserved (30_encoding.md R95). -/
def execFrameReservedE (fin : Bool) (rsv : BitVec 3) (s : State) : Out := runFrameByte0 0xE fin rsv s

/-- 0xF: reserved (30_encoding.md R95). -/
def execFrameReservedF (fin : Bool) (rsv : BitVec 3) (s : State) : Out := runFrameByte0 0xF fin rsv s

/-- Byte 1 (30_encoding.md R87): DECODE of a source region whose byte 1 has this mask bit and base length. -/
def execFrameB1 (masked : Bool) (len7 : BitVec 7) (s : State) : Out :=
  runDecode (s.readSrc 0) (.ok (byte1Of masked len7)) s

end Sys2Proof.Machine
end

