-- ==== Sys2Proof/Machine/FrameEncode.lean ====
section
/-!
DEFINITION. ENCODE (42_encode.md R171).
-/

namespace Sys2Proof.Machine

/-- Step 1: the first argument check that fails (42_encode.md R172). -/
def encodeCheck (client : Bool) (fop : BitVec 4) (fin msk : Bool) (l : Nat) : Option Cause :=
  if isReserved fop = true then some .encBadOpcode
  else if isControl fop = true ∧ fin = false then some .encControlNotFin
  else if isControl fop = true ∧ 125 < l then some .encControlTooLong
  else if client = true ∧ msk = false then some .encUnmaskedClientFrame
  else none

/-- The header length of the frame ENCODE writes (42_encode.md R171 step 2). -/
def encodeHdrLen (msk : Bool) (l : Nat) : Nat := 2 + (encodeExt l).length + (if msk then 4 else 0)

/-- The key of a masked frame and the state after taking it: MASKKEY with KEYSRC = 1, one draw with KEYSRC = 0 (42_encode.md
R177); an unmasked frame has no key and takes no draw. -/
def encodeKey (msk : Bool) (s : State) : Option Word × State :=
  if msk = false then (none, s)
  else if ctrlKeySrc s.ctrl = true then (some s.maskKey, s)
  else (some s.draw.1, s.draw.2)

/-- The bytes of the frame (42_encode.md R175, R178): byte 0, byte 1, ext, the key bytes, the payload, RSV = 0. -/
def encodeBytes (fop : BitVec 4) (fin : Bool) (key : Option Word) (p : List Byte) : List Byte :=
  byte0Of fop fin 0 :: byte1Of key.isSome (encodeLen7 p.length) :: (encodeExt p.length
    ++ (match key with
        | some k => keyBytes k
        | none => [])
    ++ maskedWith key p)

/-- The R_FRAME word ENCODE leaves: RSV 0, HV = LV = 1 (42_encode.md R179). -/
def encodeFrameWord (fop : BitVec 4) (fin msk : Bool) (l : Nat) : Word :=
  frameWord fop 0 fin msk (encodeLen7 l) (encodeHdrLen msk l) true

/-- Steps 4 and 5: payload and key are read, then frame and registers are written (42_encode.md R171). -/
def encodeWrite (fop : BitVec 4) (fin msk : Bool) (s : State) : Out :=
  reading (s.readBytes s.srcAddr.toNat s.srcLen.toNat) fun p =>
    finishOk ((((((encodeKey msk s).2.writeBuf s.dstAddr.toNat (encodeBytes fop fin (encodeKey msk s).1 p)).keepKey
      (encodeKey msk s).1).setFrame (encodeFrameWord fop fin msk s.srcLen.toNat)).setPaylen s.srcLen.toNat).setConsumed
      (encodeHdrLen msk s.srcLen.toNat + s.srcLen.toNat))

/-- The ENCODE body: argument checks, then the capacity (42_encode.md R171 steps 1 to 3, R176), then the frame. -/
def encodeBody (fop : BitVec 4) (fin msk : Bool) (s : State) : Out :=
  match encodeCheck (ctrlClient s.ctrl) fop fin msk s.srcLen.toNat with
  | some c => raise c s
  | none =>
    if s.dstCap.toNat < encodeHdrLen msk s.srcLen.toNat + s.srcLen.toNat then raise .dstTooSmall s
    else encodeWrite fop fin msk s

/-- ENCODE (42_encode.md R170). -/
def execEncode (fop : BitVec 4) (fin msk : Bool) (s : State) : Out :=
  withSrcDst (encodeBody fop fin msk) s.clearResults

end Sys2Proof.Machine
end

