-- ==== Sys2Proof/Machine/Handshake.lean ====
section
/-!
DEFINITION. VALIDATE (44_validate.md R201).
-/

namespace Sys2Proof.Machine

/-- Step 1: the header block without its final CR LF CR LF, or the fault of the first unwritten byte before the block's
end, or none where the source region holds no CR LF CR LF (44_validate.md R202, R204). Bytes are read in rising order and
no further than the terminator; with fewer than four bytes none is read (assumption 8). -/
def headerBlock (s : State) : Except Fault (Option (List Byte)) :=
  if s.srcLen.toNat < 4 then .ok none
  else
    let p := s.writtenPrefix s.srcAddr.toNat s.srcLen.toNat
    match findHeaderEnd p with
    | some e => .ok (some (p.take e))
    | none => if p.length < s.srcLen.toNat then .error (.unwrittenByte (s.srcAddr.toNat + p.length)) else .ok none

/-- Steps 3 to 5 up to the Accept value: the first cause that applies to the lines of the block (44_validate.md R206, R208,
R209). -/
def linesCheck (lines : List (List Byte)) : Option Cause :=
  if statusLineOk (lines.headD []) = false then some .statusNot101
  else if 1 < (valuesOf txtUpgrade (headerFields lines)).length
      ∨ 1 < (valuesOf txtConnection (headerFields lines)).length
      ∨ 1 < (valuesOf txtAccept (headerFields lines)).length then some .duplicateHeader
  else if (valuesOf txtUpgrade (headerFields lines)).any (ieq · txtWebsocket) = false then some .upgradeBad
  else if (valuesOf txtConnection (headerFields lines)).any (ieq · txtUpgrade) = false then some .connectionBad
  else if valuesOf txtAccept (headerFields lines) = [] then some .acceptMissing
  else none

/-- The end of step 5: the Accept value is compared byte for byte with the auxiliary region (44_validate.md R207, R209). -/
def validateAccept (lines : List (List Byte)) (s : State) : Out :=
  reading (s.readBytes s.auxAddr.toNat s.auxLen.toNat) fun x =>
    if valuesOf txtAccept (headerFields lines) = [x] then finishOk s else raise .acceptMismatch s

/-- Steps 2 to 5 on a complete header block; R_CONSUMED is its length with the terminator (44_validate.md R205). -/
def validateBlock (b : List Byte) (s : State) : Out :=
  match linesCheck (splitLines b) with
  | some c => raise c (s.setConsumed (b.length + 4))
  | none => validateAccept (splitLines b) (s.setConsumed (b.length + 4))

/-- The VALIDATE body (44_validate.md R201). -/
def validateBody (s : State) : Out :=
  if s.auxLen.toNat = 0 then raise .auxEmpty s
  else reading (headerBlock s) fun
    | none => need .needHeaderEnd (s.srcLen.toNat + 1) s
    | some b => validateBlock b s

/-- VALIDATE (44_validate.md R200). -/
def execValidate (s : State) : Out := withSrcAux validateBody s.clearResults

end Sys2Proof.Machine
end

