-- ==== Sys2Proof/Machine/MaskKernel.lean ====
section
/-!
DEFINITION. MASK (43_mask.md R190).
-/

namespace Sys2Proof.Machine

/-- The MASK body (43_mask.md R190): all source bytes are read before any is written (R191). -/
def maskBody (s : State) : Out :=
  if s.dstCap.toNat < s.srcLen.toNat then raise .dstTooSmall s
  else reading (s.readBytes s.srcAddr.toNat s.srcLen.toNat) fun p =>
    finishOk ((s.writeBuf s.dstAddr.toNat (xorMask s.maskKey p)).setConsumed s.srcLen.toNat)

/-- MASK (43_mask.md R190). -/
def execMask (s : State) : Out := withSrcDstInPlace maskBody s.clearResults

end Sys2Proof.Machine
end

