-- ==== Sys2Proof/Machine/Dispatch.lean ====
section
/-!
DEFINITION. `exec(v)` of 40_dispatch.md R120 once the command word is decoded: one arm per constructor of Instr.
-/

namespace Sys2Proof.Machine

def exec (i : Instr) (s : State) : Host.Outcome State Fault Refusal :=
  match i with
  -- command words (format cmd32)
  | .decode => Sys2Proof.Machine.execDecode s
  | .encode fop fin msk => Sys2Proof.Machine.execEncode fop fin msk s
  | .mask => Sys2Proof.Machine.execMask s
  | .validate => Sys2Proof.Machine.execValidate s
  | .clear => Sys2Proof.Machine.execClear s
  | .illegal word => Sys2Proof.Machine.execIllegal word s
  -- byte 0 of a frame (format frame_b0)
  | .frameContinuation fin rsv => Sys2Proof.Machine.execFrameContinuation fin rsv s
  | .frameText fin rsv => Sys2Proof.Machine.execFrameText fin rsv s
  | .frameBinary fin rsv => Sys2Proof.Machine.execFrameBinary fin rsv s
  | .frameReserved3 fin rsv => Sys2Proof.Machine.execFrameReserved3 fin rsv s
  | .frameReserved4 fin rsv => Sys2Proof.Machine.execFrameReserved4 fin rsv s
  | .frameReserved5 fin rsv => Sys2Proof.Machine.execFrameReserved5 fin rsv s
  | .frameReserved6 fin rsv => Sys2Proof.Machine.execFrameReserved6 fin rsv s
  | .frameReserved7 fin rsv => Sys2Proof.Machine.execFrameReserved7 fin rsv s
  | .frameClose fin rsv => Sys2Proof.Machine.execFrameClose fin rsv s
  | .framePing fin rsv => Sys2Proof.Machine.execFramePing fin rsv s
  | .framePong fin rsv => Sys2Proof.Machine.execFramePong fin rsv s
  | .frameReservedB fin rsv => Sys2Proof.Machine.execFrameReservedB fin rsv s
  | .frameReservedC fin rsv => Sys2Proof.Machine.execFrameReservedC fin rsv s
  | .frameReservedD fin rsv => Sys2Proof.Machine.execFrameReservedD fin rsv s
  | .frameReservedE fin rsv => Sys2Proof.Machine.execFrameReservedE fin rsv s
  | .frameReservedF fin rsv => Sys2Proof.Machine.execFrameReservedF fin rsv s
  -- byte 1 of a frame (format frame_b1)
  | .frameB1 masked len7 => Sys2Proof.Machine.execFrameB1 masked len7 s

end Sys2Proof.Machine
end

