-- ==== Sys2Proof/Machine/Transactions.lean ====
section
/-!
DEFINITION. The host's transactions: register accesses (10_state.md R21, R28, R47), buffer accesses (20_memory.md R62),
platform addresses (R64) and reset (70_reset_and_hazards.md R280); and how a table word is placed for the next step.
-/

namespace Sys2Proof.Machine

/-- A register access the block takes: 32 bits wide, at a multiple of 4 below 0x100 (10_state.md R21). -/
def registerAccessOk (off bits : Nat) : Bool := decide (bits = 32 ∧ off % 4 = 0 ∧ off < 0x100)

/-- `HostWrite(off, v)` (10_state.md R21): a write to CMD runs the command of the word (R28, 40_dispatch.md R120), every
other write does what R47 says of its register. -/
def hostWrite (off bits : Nat) (v : Word) (s : State) : Out :=
  if registerAccessOk off bits = false then .refused (.registerAccess off bits)
  else
    match regAt off with
    | some .cmd => exec (decodeWord v) s
    | some r => .next (s.writeReg r v)
    | none => .next s

/-- `HostRead(off)` (10_state.md R21); it changes no state of the block (20_memory.md R69). -/
def hostRead (off bits : Nat) (s : State) : Out :=
  if registerAccessOk off bits = false then .refused (.registerAccess off bits)
  else .next { s with reply := .word (s.readOffset off) }

/-- `HostWriteBuf(a, b)` (20_memory.md R62). -/
def hostBufWrite (a : Nat) (b : Byte) (s : State) : Out :=
  if a < s.cfg.bufSize then .next (s.writeBuf a [b]) else .refused (.bufferAddress a)

/-- `HostReadBuf(a)` (20_memory.md R62); an unwritten byte is a model fault (R63). -/
def hostBufRead (a : Nat) (s : State) : Out :=
  if a < s.cfg.bufSize then reading (s.readByte a) fun b => .next { s with reply := .byte b }
  else .refused (.bufferAddress a)

/-- The four bytes of a wide access, little-endian lanes: v[7:0] first (20_memory.md R62). -/
def laneBytes (v : Word) : List Byte :=
  [v.extractLsb' 0 8, v.extractLsb' 8 8, v.extractLsb' 16 8, v.extractLsb' 24 8]

/-- The word of the bytes of a wide access, first byte in bits 7:0 (20_memory.md R62). -/
def laneWord (bs : List Byte) : Word := BitVec.ofNat 32 (beValue bs.reverse)

/-- The 32-bit `HostWriteBuf` (20_memory.md R62). -/
def hostBufWriteWide (a : Nat) (v : Word) (s : State) : Out :=
  if a % 4 ≠ 0 then .refused (.bufferMisaligned a)
  else if a + 4 ≤ s.cfg.bufSize then .next (s.writeBuf a (laneBytes v))
  else .refused (.bufferAddress a)

/-- The 32-bit `HostReadBuf` (20_memory.md R62). -/
def hostBufReadWide (a : Nat) (s : State) : Out :=
  if a % 4 ≠ 0 then .refused (.bufferMisaligned a)
  else if a + 4 ≤ s.cfg.bufSize then reading (s.readBytes a 4) fun bs => .next { s with reply := .word (laneWord bs) }
  else .refused (.bufferAddress a)

/-- The window a platform address lies in: the offset in the register window, or the address in the buffer window
(20_memory.md R64; assumption 4). -/
inductive Window where
  | reg (off : Nat)
  | buf (a : Nat)
  | none
deriving DecidableEq, Repr

/-- The window of a platform address; where a platform lets the two overlap, the register window comes first. -/
def windowOf (c : Config) (addr : Nat) : Window :=
  if c.regBase ≤ addr ∧ addr < c.regBase + 0x100 then .reg (addr - c.regBase)
  else if c.bufBase ≤ addr ∧ addr < c.bufBase + c.bufSize then .buf (addr - c.bufBase)
  else .none

/-- A write at a platform address is the transaction of its window (20_memory.md R64). -/
def platformWrite (addr bits : Nat) (v : Word) (s : State) : Out :=
  match windowOf s.cfg addr with
  | .reg off => hostWrite off bits v s
  | .buf a =>
    if bits = 8 then hostBufWrite a (v.setWidth 8) s
    else if bits = 32 then hostBufWriteWide a v s
    else .refused (.bufferWidth bits)
  | .none => .refused (.outsideWindows addr)

/-- A read at a platform address is the transaction of its window (20_memory.md R64). -/
def platformRead (addr bits : Nat) (s : State) : Out :=
  match windowOf s.cfg addr with
  | .reg off => hostRead off bits s
  | .buf a =>
    if bits = 8 then hostBufRead a s
    else if bits = 32 then hostBufReadWide a s
    else .refused (.bufferWidth bits)
  | .none => .refused (.outsideWindows addr)

/-- Reset released: the state of 70_reset_and_hazards.md R280 for the same machine. -/
def resetState (s : State) : State := State.afterReset s.cfg s.draws s.pending

/-- One transaction. -/
def serve (op : HostOp) (s : State) : Out :=
  match op with
  | .regWrite off bits v => hostWrite off bits v s
  | .regRead off bits => hostRead off bits s
  | .bufWrite a b => hostBufWrite a b s
  | .bufRead a => hostBufRead a s
  | .bufWriteWide a v => hostBufWriteWide a v s
  | .bufReadWide a => hostBufReadWide a s
  | .platformWrite addr bits v => platformWrite addr bits v s
  | .platformRead addr bits => platformRead addr bits s
  | .reset => .next (resetState s)

/-- The state in which a transaction is served: it has left the queue, and the answer to the one before is gone. -/
def State.taken (s : State) (rest : List HostOp) : State := { s with pending := rest, reply := .nothing }

/-- The transactions in the order the host issues them, one a step (20_memory.md R73); with none pending the block is idle
and holds all its state (60_exceptions.md R256). -/
def serveNext (s : State) : Out :=
  match s.pending with
  | [] => .next s
  | op :: rest => serve op (s.taken rest)

/-- The offset of CMD (10_state.md R28). -/
def cmdOffset : Nat := 0x08

/-- The transaction that starts the command of a word. -/
def startCommand (w : Word) : HostOp := .regWrite cmdOffset 32 w

/-- The code placed where the next step runs it: a command word is written to CMD; a frame byte is put, with a 0 in the
place of the other of bytes 0 and 1, into a two-byte source region at address 0 that a DECODE command is about to read,
with an empty destination (assumptions 1 and 6). -/
def place (s : State) : Code → State
  | .command w => { s with pending := startCommand w :: s.pending }
  | .byte0 b => { s with
      srcAddr := 0, srcLen := 2, dstAddr := 0, dstCap := 0
      buf := s.buf.writeBytes 0 [b, 0]
      pending := startCommand 0x00000001 :: s.pending }
  | .byte1 b => { s with
      srcAddr := 0, srcLen := 2, dstAddr := 0, dstCap := 0
      buf := s.buf.writeBytes 0 [0, b]
      pending := startCommand 0x00000001 :: s.pending }

/-- The table word of this many bits placed where the next step runs it. -/
def placeTableWord (s : State) (nbits w : Nat) : State :=
  match tableCode nbits w with
  | some c => place s c
  | none => s

end Sys2Proof.Machine
end

