-- ==== Sys2Proof/Machine/Step.lean ====
section
/-!
DEFINITION. One step: the oldest pending transaction is served (20_memory.md R73).
-/

namespace Sys2Proof.Machine

def step (s : State) : Host.Outcome State Fault Refusal := serveNext s

/-- The machine with a table word placed where the very next step runs it (assumption 1). -/
def State.withFetchWord (s : State) (nbits w : Nat) : State := placeTableWord s nbits w

end Sys2Proof.Machine
end

