-- ==== Sys2Proof/Safety.lean ====
section
/-!
DEFINITION. What a legal state is: the rules of spec/ that relate fields of the state, each as a predicate that every step
keeps and the reset state meets.
-/

namespace Sys2Proof.Safety

open Sys2Proof.Machine

/-- The parameters lie in their bounds (00_scope.md R7). -/
abbrev ParamsLegal (s : State) : Prop := s.cfg.Valid

/-- BUF is in its canonical form and every written byte lies in it (20_memory.md R60). -/
abbrev BufLegal (s : State) : Prop := s.buf.wf = true ∧ s.buf.below s.cfg.bufSize = true

/-- CTRL bits 31:3 read 0 (10_state.md R27). -/
abbrev CtrlLegal (s : State) : Prop := s.ctrl &&& 0xFFFFFFF8 = 0

/-- STATUS is 0, or OK with cause 0, or a cause with the RESULT of its own table (60_exceptions.md R236). -/
def StatusLegal (s : State) : Prop := s.status = 0 ∨ s.status = statusOk ∨ ∃ c, s.status = statusOf c

/-- R_FRAME's reserved bits read 0; with HV = 0 all of it reads 0; with LV = 0, R_PAYLEN reads 0 (10_state.md R41, R42). -/
abbrev FrameLegal (s : State) : Prop :=
  s.rFrame &&& 0xFFC00000 = 0 ∧ (frameHV s.rFrame = false → s.rFrame = 0) ∧
    (frameLV s.rFrame = false → s.rPaylenLo = 0 ∧ s.rPaylenHi = 0)

/-- R_CONSUMED is 0 unless the command ended OK or HANDSHAKE_FAILED, and R_NEED unless it ended NEED_MORE (10_state.md R44,
R45; 60_exceptions.md R237). -/
abbrev CountsLegal (s : State) : Prop :=
  (statusResult s.status ≠ resultCode .ok → statusResult s.status ≠ resultCode .handshakeFailed → s.rConsumed = 0) ∧
    (statusResult s.status ≠ resultCode .needMore → s.rNeedLo = 0 ∧ s.rNeedHi = 0)

/-- All of the rules above. -/
def Legal (s : State) : Prop :=
  ParamsLegal s ∧ BufLegal s ∧ CtrlLegal s ∧ StatusLegal s ∧ FrameLegal s ∧ CountsLegal s

/-- A safe step: it ends in a next state, so no unwritten byte was read and no host duty was broken (60_exceptions.md R239). -/
def SafeStep (s : State) : Prop := ∃ t, step s = .next t

end Sys2Proof.Safety
end

