-- ==== Sys2Proof/Certificates/Slice0/Obligations.lean ====
section
/-!
DEFINITION. The statements for the provers, each one the rules of spec/ its docstring names, and the shorthands they are
written in.
-/

namespace Sys2Proof.Stated

open Sys2Proof.Machine

/-! ## Shorthands -/

/-- What every command leaves: STATUS and the six result registers as given, all else as it was. The lengths are written as
10_state.md R43-R45 split them. -/
def outcome (s : State) (status frame : Word) (paylen consumed needed : Nat) : State :=
  { s with
    status := status, rFrame := frame
    rPaylenLo := BitVec.ofNat 32 paylen, rPaylenHi := BitVec.ofNat 32 (paylen / 0x100000000)
    rConsumed := BitVec.ofNat 32 consumed
    rNeedLo := BitVec.ofNat 32 needed, rNeedHi := BitVec.ofNat 32 (needed / 0x100000000) }

/-- These bytes are written in the buffer from this address on. -/
def BytesAt (m : Memory) (a : Nat) (bs : List Byte) : Prop := ∀ i (h : i < bs.length), m.read (a + i) = some bs[i]

/-- The source region lies in BUF (20_memory.md R70). -/
abbrev SrcFits (s : State) : Prop := s.srcAddr.toNat + s.srcLen.toNat ≤ s.cfg.bufSize

/-- The destination region lies in BUF at its full capacity (40_dispatch.md R123). -/
abbrev DstFits (s : State) : Prop := s.dstAddr.toNat + s.dstCap.toNat ≤ s.cfg.bufSize

/-- The auxiliary region lies in BUF. -/
abbrev AuxFits (s : State) : Prop := s.auxAddr.toNat + s.auxLen.toNat ≤ s.cfg.bufSize

/-- Source and destination region share an address (20_memory.md R70). -/
abbrev Overlapping (s : State) : Prop :=
  0 < s.srcLen.toNat ∧ 0 < s.dstCap.toNat ∧ s.srcAddr.toNat < s.dstAddr.toNat + s.dstCap.toNat ∧
    s.dstAddr.toNat < s.srcAddr.toNat + s.srcLen.toNat

/-- The prologue of DECODE and ENCODE passes (40_dispatch.md R123, R124). -/
abbrev RegionsPass (s : State) : Prop := SrcFits s ∧ DstFits s ∧ ¬ Overlapping s

/-- The prologue of MASK passes (40_dispatch.md R124). -/
abbrev MaskRegionsPass (s : State) : Prop :=
  SrcFits s ∧ DstFits s ∧ (¬ Overlapping s ∨ s.srcAddr = s.dstAddr)

/-- Two source bytes are present and written. -/
abbrev FirstBytes (s : State) (b0 b1 : Byte) : Prop :=
  2 ≤ s.srcLen.toNat ∧ s.buf.read s.srcAddr.toNat = some b0 ∧ s.buf.read (s.srcAddr.toNat + 1) = some b1

/-- The frame opcodes that are not reserved (30_encoding.md R88). -/
abbrev GoodOpcode (op : BitVec 4) : Prop := op = 0x0 ∨ op = 0x1 ∨ op = 0x2 ∨ op = 0x8 ∨ op = 0x9 ∨ op = 0xA

/-- The control opcodes Close, Ping and Pong (30_encoding.md R88). -/
abbrev ControlOpcode (op : BitVec 4) : Prop := op = 0x8 ∨ op = 0x9 ∨ op = 0xA

/-- No check of 41_decode.md R144 fails. -/
abbrev HeaderAccepted (s : State) (h : FrameHeader) : Prop :=
  h.rsv = 0 ∧ GoodOpcode h.op ∧ (ctrlClient s.ctrl = true → h.masked = false) ∧
    (ControlOpcode h.op → h.fin = true ∧ h.len7.toNat ≤ 125)

/-- `BE(s)` of 00_scope.md R11 as the rule writes it: the sum of s[i] · 256^(|s| − 1 − i). -/
def bigEndian (bs : List Byte) : Nat := (bs.mapIdx fun i b => b.toNat * 256 ^ (bs.length - 1 - i)).sum

/-- The payload length of a base length field and the extended bytes (30_encoding.md R89, 20_memory.md R65). -/
def wireLength (len7 : BitVec 7) (ext : List Byte) : Nat := if len7.toNat ≤ 125 then len7.toNat else bigEndian ext

/-- From this address on the bytes are written, fewer than n of them, and the byte after them is unwritten. -/
abbrev UnwrittenAfter (m : Memory) (a n : Nat) (bs : List Byte) : Prop :=
  bs.length < n ∧ BytesAt m a bs ∧ m.read (a + bs.length) = none

/-- SP or HT (00_scope.md R14). -/
abbrev SpaceOrTab (b : Byte) : Prop := b = 0x20 ∨ b = 0x09

/-- The extended bytes of a frame stand in the source region, and its payload length is l. -/
abbrev LengthPresent (s : State) (h : FrameHeader) (ext : List Byte) (l : Nat) : Prop :=
  ext.length = extLen h.len7 ∧ 2 + ext.length ≤ s.srcLen.toNat ∧ BytesAt s.buf (s.srcAddr.toNat + 2) ext ∧
    l = wireLength h.len7 ext

/-- No check of 41_decode.md R147 and R148 fails. -/
abbrev LengthAccepted (s : State) (h : FrameHeader) (l : Nat) : Prop :=
  (h.len7 = 127 → l < 0x8000000000000000) ∧
    (ctrlStrictLen s.ctrl = true → (h.len7 = 126 → 126 ≤ l) ∧ (h.len7 = 127 → 65536 ≤ l))

/-- The bytes of a frame in wire order (30_encoding.md R85): b0, b1, ext, key, data. -/
def wireFrame (h : FrameHeader) (ext : List Byte) (key : Option Word) (data : List Byte) : List Byte :=
  byte0Of h.op h.fin h.rsv :: byte1Of h.masked h.len7 :: (ext ++ (key.map keyBytes).getD [] ++ data)

/-- The state holds, from its source address on, a whole frame that DECODE accepts, with this header, extended length, key
and payload bytes (as they stand on the wire), and room for the payload. -/
structure WholeFrame (s : State) (h : FrameHeader) (ext : List Byte) (key : Option Word) (data : List Byte) : Prop where
  regions : RegionsPass s
  header : HeaderAccepted s h
  extLength : ext.length = extLen h.len7
  keyPresent : h.masked = key.isSome
  dataLength : data.length = wireLength h.len7 ext
  accepted : LengthAccepted s h data.length
  present : (wireFrame h ext key data).length ≤ s.srcLen.toNat
  room : data.length ≤ s.dstCap.toNat
  bytes : BytesAt s.buf s.srcAddr.toNat (wireFrame h ext key data)

/-- What DECODE leaves after a whole frame (41_decode.md R153): the unmasked payload at DST_ADDR, the key of a masked frame
in MASKKEY, R_CONSUMED the length of the frame. -/
def decoded (s : State) (h : FrameHeader) (ext : List Byte) (key : Option Word) (data : List Byte) : State :=
  { outcome s 0x00000001 (headerWord h true) data.length (wireFrame h ext key data).length 0 with
    buf := s.buf.writeBytes s.dstAddr.toNat (maskedWith key data), maskKey := key.getD s.maskKey }

/-- The STATUS the first failing check on bytes 0 and 1 gives, in the order of 41_decode.md R141 step 2. -/
def headerStatus (client : Bool) (h : FrameHeader) : Option Word :=
  if h.rsv ≠ 0 then some 0x00000103
  else if ¬ GoodOpcode h.op then some 0x00000203
  else if client = true ∧ h.masked = true then some 0x00000303
  else if ControlOpcode h.op ∧ h.fin = false then some 0x00000403
  else if ControlOpcode h.op ∧ 125 < h.len7.toNat then some 0x00000503
  else none

/-- The STATUS the first failing argument check of ENCODE gives, in the order of 42_encode.md R171 step 1. -/
def argumentStatus (client : Bool) (fop : BitVec 4) (fin msk : Bool) (l : Nat) : Option Word :=
  if ¬ GoodOpcode fop then some 0x00002505
  else if ControlOpcode fop ∧ fin = false then some 0x00002605
  else if ControlOpcode fop ∧ 125 < l then some 0x00002705
  else if client = true ∧ msk = false then some 0x00002805
  else none

/-- The header length law of 42_encode.md R181. -/
def lawHdrLen (l : Nat) (msk : Bool) : Nat :=
  2 + (if 126 ≤ l ∧ l ≤ 65535 then 2 else if 65535 < l then 8 else 0) + (if msk then 4 else 0)

/-- The key ENCODE uses (42_encode.md R177). -/
def keyUsed (s : State) (msk : Bool) : Option Word :=
  if msk = false then none else if ctrlKeySrc s.ctrl = true then some s.maskKey else some (Config.entropyDraw s.draws)

/-- The frame ENCODE writes for a payload (42_encode.md R175). -/
def encodedFrame (s : State) (fop : BitVec 4) (fin msk : Bool) (p : List Byte) : List Byte :=
  wireFrame ⟨fop, 0, fin, msk, encodeLen7 p.length⟩ (encodeExt p.length) (keyUsed s msk) (maskedWith (keyUsed s msk) p)

/-- CR LF CR LF (44_validate.md R202). -/
abbrev terminator : List Byte := [0x0D, 0x0A, 0x0D, 0x0A]

/-- The header block b ends the response: b and then CR LF CR LF, the first one, stand in the source region (44_validate.md
R202): none begins before the end of b. -/
abbrev BlockPresent (s : State) (b : List Byte) : Prop :=
  (∀ i < b.length, ((b ++ terminator).drop i).take 4 ≠ terminator) ∧ b.length + 4 ≤ s.srcLen.toNat ∧
    BytesAt s.buf s.srcAddr.toNat (b ++ terminator)

/-- VALIDATE gets past its prologue and its argument check (44_validate.md R201 step 0). -/
abbrev ValidateRuns (s : State) : Prop := SrcFits s ∧ AuxFits s ∧ s.auxLen.toNat ≠ 0

/-- The fields of a block (44_validate.md R201 step 4). -/
def blockFields (b : List Byte) : List (List Byte × List Byte) := headerFields (splitLines b)

/-- The instructions that run DECODE: the command and the frame rows of the table. -/
def RunsDecode : Instr → Prop
  | .encode _ _ _ | .mask | .validate | .clear | .illegal _ => False
  | _ => True

/-- How many bytes a command that ended in state t has stored from DST_ADDR on: the payload length for DECODE, the bytes
written for ENCODE and MASK (10_state.md R44), none otherwise. -/
def storedBytes (i : Instr) (t : State) : Nat :=
  if t.status ≠ 0x00000001 then 0
  else
    match i with
    | .encode _ _ _ | .mask => t.rConsumed.toNat
    | .validate | .clear | .illegal _ => 0
    | _ => t.rPaylenHi.toNat * 0x100000000 + t.rPaylenLo.toNat

/-- The words STATUS can hold (60_exceptions.md R231-R236): 0, OK, and each cause with the RESULT of its table. -/
def statusWords : List Word :=
  [0x00000000, 0x00000001, 0x00000103, 0x00000203, 0x00000303, 0x00000403, 0x00000503, 0x00000603, 0x00000703,
    0x00001004, 0x00001104, 0x00001204, 0x00001304, 0x00001404, 0x00001504, 0x00002005, 0x00002105, 0x00002205,
    0x00002305, 0x00002405, 0x00002505, 0x00002605, 0x00002705, 0x00002805, 0x00002905, 0x00003002, 0x00003102,
    0x00003202, 0x00003302, 0x00003402]

/-- What a read of the register window returns, offset by offset (10_state.md R47). -/
def windowValue (s : State) (off : Nat) : Word :=
  if off = 0x00 then 0x57534631 else if off = 0x04 then s.ctrl else if off = 0x0C then s.status
  else if off = 0x10 then s.srcAddr else if off = 0x14 then s.srcLen else if off = 0x18 then s.dstAddr
  else if off = 0x1C then s.dstCap else if off = 0x20 then s.auxAddr else if off = 0x24 then s.auxLen
  else if off = 0x28 then s.maskKey else if off = 0x30 then s.rFrame else if off = 0x34 then s.rPaylenLo
  else if off = 0x38 then s.rPaylenHi else if off = 0x3C then s.rConsumed else if off = 0x40 then s.rNeedLo
  else if off = 0x44 then s.rNeedHi else 0

/-- What a write of the register window other than to CMD leaves, offset by offset: CTRL keeps its three mode bits, and a
read-only register or an offset without one is not changed (10_state.md R47). -/
def windowWritten (s : State) (off : Nat) (v : Word) : State :=
  if off = 0x04 then { s with ctrl := v &&& 7 } else if off = 0x10 then { s with srcAddr := v }
  else if off = 0x14 then { s with srcLen := v } else if off = 0x18 then { s with dstAddr := v }
  else if off = 0x1C then { s with dstCap := v } else if off = 0x20 then { s with auxAddr := v }
  else if off = 0x24 then { s with auxLen := v } else if off = 0x28 then { s with maskKey := v } else s

/-- The four bytes of a word stored in little-endian lanes (20_memory.md R62). -/
def laneStored (m : Memory) (a : Nat) (v : Word) : Memory :=
  (((m.write a (v.extractLsb' 0 8)).write (a + 1) (v.extractLsb' 8 8)).write (a + 2) (v.extractLsb' 16 8)).write (a + 3)
    (v.extractLsb' 24 8)

end Sys2Proof.Stated

open Sys2Proof Sys2Proof.Machine Sys2Proof.Stated Sys2Proof.Safety

/-! ## Encodings -/

/-- 30_encoding.md R80-R88: every well-formed instruction decodes from its own encoding, every operand kept. -/
def Obligations.EncodeThenDecodeIsIdentity : Prop := ∀ i : Instr, i.wellFormed = true → decodeCode (encode i) = i

/-- 30_encoding.md R84: every word and every frame byte decodes to a well-formed instruction that encodes to it. -/
def Obligations.DecodeThenEncodeIsIdentity : Prop :=
  ∀ c : Code, (decodeCode c).wellFormed = true ∧ encode (decodeCode c) = c

/-- 30_encoding.md R83, R84: which words are which command, by the match and mask of the opcode table, and which of the two
causes an illegal word has; the instruction of a word is its command, and `illegal` with the word where it is none. -/
def Obligations.DecoderAgreesWithTheTable : Prop :=
  ∀ v : Word,
    (decodeCmd v = .ok .decode ↔ v = 0x00000001) ∧ (decodeCmd v = .ok .mask ↔ v = 0x00000003) ∧
    (decodeCmd v = .ok .validate ↔ v = 0x00000004) ∧ (decodeCmd v = .ok .clear ↔ v = 0x0000000F) ∧
    (∀ fop fin msk, decodeCmd v = .ok (.encode fop fin msk) ↔
      v &&& 0xFFFFC0FF = 0x00000002 ∧ v.extractLsb' 8 4 = fop ∧ v.getLsbD 12 = fin ∧ v.getLsbD 13 = msk) ∧
    (decodeCmd v = .error .illegalCommand ↔ v.toNat % 16 ∉ [0x1, 0x2, 0x3, 0x4, 0xF]) ∧
    (decodeCmd v = .error .reservedCmdBits ↔
      (v.toNat % 16 = 0x2 ∧ v &&& 0xFFFFC0F0 ≠ 0) ∨ (v.toNat % 16 ∈ [0x1, 0x3, 0x4, 0xF] ∧ v &&& 0xFFFFFFF0 ≠ 0)) ∧
    (∀ i, decodeCmd v = .ok i → decodeWord v = i) ∧ (∀ c, decodeCmd v = .error c → decodeWord v = .illegal v) ∧
    decodeCode (.command v) = decodeWord v

/-- 30_encoding.md R100, 40_dispatch.md R121: command words written out from the encodings decode to what they stand for; and a
byte 1 by R87. That a bare table word of 8 bits is read as byte 0 of a frame (its fields by R86) is the model's choice, log
entry 11. -/
def Obligations.WrittenOutWordsDecode : Prop :=
  decodeTableWord 32 0x00000001 = some .decode ∧ decodeTableWord 32 0x00003102 = some (.encode 0x1 true true) ∧
    decodeTableWord 32 0x00000003 = some .mask ∧ decodeTableWord 32 0x00000004 = some .validate ∧
    decodeTableWord 32 0x0000000F = some .clear ∧ decodeTableWord 32 0x00000007 = some (.illegal 0x00000007) ∧
    decodeTableWord 32 0x00000011 = some (.illegal 0x00000011) ∧ decodeTableWord 8 0x89 = some (.framePing true 0) ∧
    decodeTableWord 8 0x73 = some (.frameReserved3 false 7) ∧ decodeCode (.byte1 0x85) = .frameB1 true 5

/-- 10_state.md R41: the fields of the R_FRAME word, bit for bit, with the header length of 30_encoding.md R90. R86, R87: the
fields of bytes 0 and 1 of a frame, as they are read and as they are written, for every byte. -/
def Obligations.FrameRegisterAndByteLayout : Prop :=
  (∀ (h : FrameHeader) (lv : Bool),
    (headerWord h lv).extractLsb' 0 4 = h.op ∧ (headerWord h lv).extractLsb' 4 3 = h.rsv ∧
    (headerWord h lv).getLsbD 7 = h.fin ∧ (headerWord h lv).getLsbD 8 = h.masked ∧
    (headerWord h lv).extractLsb' 9 7 = h.len7 ∧ ((headerWord h lv).extractLsb' 16 4).toNat = frameHdrLen h ∧
    (headerWord h lv).getLsbD 20 = true ∧ (headerWord h lv).getLsbD 21 = lv ∧ (headerWord h lv).extractLsb' 22 10 = 0 ∧
    extLen h.len7 = (if h.len7 = 126 then 2 else if h.len7 = 127 then 8 else 0) ∧
    frameHdrLen h = 2 + (if h.len7 = 126 then 2 else if h.len7 = 127 then 8 else 0) + (if h.masked then 4 else 0)) ∧
  (∀ w : Word, frameHV w = w.getLsbD 20 ∧ frameLV w = w.getLsbD 21) ∧
  (∀ b0 b1 : Byte,
    (headerOf b0 b1).fin = b0.getLsbD 7 ∧ (headerOf b0 b1).rsv = b0.extractLsb' 4 3 ∧
    (headerOf b0 b1).op = b0.extractLsb' 0 4 ∧ (headerOf b0 b1).masked = b1.getLsbD 7 ∧
    (headerOf b0 b1).len7 = b1.extractLsb' 0 7) ∧
  (∀ (op : BitVec 4) (fin : Bool) (rsv : BitVec 3) (masked : Bool) (len7 : BitVec 7),
    (byte0Of op fin rsv).getLsbD 7 = fin ∧ (byte0Of op fin rsv).extractLsb' 4 3 = rsv ∧
    (byte0Of op fin rsv).extractLsb' 0 4 = op ∧ (byte1Of masked len7).getLsbD 7 = masked ∧
    (byte1Of masked len7).extractLsb' 0 7 = len7)

/-! ## The step -/

/-- 10_state.md R28, 40_dispatch.md R120: a 32-bit write of a word to CMD is the step that runs the command of the word, and
a read of CMD returns 0. Around `exec` the step takes the transaction off the queue and clears the answer to the one before
(`State.taken`). -/
def Obligations.StepRunsTheCommandWord : Prop :=
  ∀ (s : State) (rest : List HostOp),
    (∀ v, s.pending = .regWrite 0x08 32 v :: rest → step s = exec (decodeWord v) (s.taken rest)) ∧
    (s.pending = .regRead 0x08 32 :: rest → step s = .next { s.taken rest with reply := .word 0 })

/-- DECODE is the frame row of the byte it reads: where byte 0 of the source is written, the row of that byte; where byte 1 is,
the row of that one. That a frame row of the opcode table is the whole DECODE command with its byte in place of one read is
log entry 6, the model's choice (DEDUCED from 41_decode.md R141); this statement says what that choice amounts to. -/
def Obligations.DecodeRunsTheFrameRow : Prop :=
  ∀ (s : State) (b : Byte),
    (s.buf.read s.srcAddr.toNat = some b → exec .decode s = exec (decodeCode (.byte0 b)) s) ∧
    (s.buf.read (s.srcAddr.toNat + 1) = some b → exec .decode s = exec (decodeCode (.byte1 b)) s)

/-- A table word that is placed is what the very next step runs: a command word, or the frame row of a byte, which DECODE
runs on the two bytes placed for it (log entries 1 and 6: the model's choice, the spec has no program memory). -/
def Obligations.PlacedTableWordRunsNext : Prop :=
  ∀ (s : State) (w : Nat),
    step (s.withFetchWord 32 w) = exec (decodeWord (BitVec.ofNat 32 w)) (s.taken s.pending) ∧
    ∀ i, decodeTableWord 8 w = some i →
      step (s.withFetchWord 8 w) = exec i ((s.withFetchWord 8 w).taken s.pending)

/-- 60_exceptions.md R256, 20_memory.md R73: with no transaction pending a step changes nothing; otherwise it serves the oldest
one, in the state in which that one has left the queue and the answer to the one before is gone; and what is left of the queue
is the rest of it. -/
def Obligations.TransactionsAreServedInOrder : Prop :=
  ∀ s : State,
    (s.pending = [] → step s = .next s) ∧
    (∀ op rest, s.pending = op :: rest → step s = serve op (s.taken rest) ∧
      s.taken rest = { s with pending := rest, reply := .nothing }) ∧
    (∀ t, step s = .next t → (s.pending = [] → t = s) ∧ (s.pending ≠ [] → t.pending = s.pending.tail))

/-! ## Illegal words and CLEAR -/

/-- 30_encoding.md R98: the two kinds of illegal words end in CMD_ERROR and change nothing but the outcome registers. -/
def Obligations.IllegalWordsEndInCmdError : Prop :=
  ∀ (s : State) (v : Word),
    (v.toNat % 16 ∉ [0x1, 0x2, 0x3, 0x4, 0xF] →
      decodeWord v = .illegal v ∧ exec (.illegal v) s = .next (outcome s 0x00002005 0 0 0 0)) ∧
    ((v.toNat % 16 = 0x2 ∧ v &&& 0xFFFFC0F0 ≠ 0) ∨ (v.toNat % 16 ∈ [0x1, 0x3, 0x4, 0xF] ∧ v &&& 0xFFFFFFF0 ≠ 0) →
      decodeWord v = .illegal v ∧ exec (.illegal v) s = .next (outcome s 0x00002105 0 0 0 0))

/-- 40_dispatch.md R126: CLEAR is the word 0x0000000F alone; it zeroes STATUS and the six result registers and nothing else;
after reset it changes nothing; and it is the only command that leaves RESULT = NONE. -/
def Obligations.ClearLeavesNone : Prop :=
  (∀ v : Word, decodeWord v = .clear ↔ v = 0x0000000F) ∧
  (∀ s : State, exec .clear s = .next (outcome s 0 0 0 0 0)) ∧
  (∀ (c : Config) (d : Nat) (q : List HostOp),
    exec .clear (State.afterReset c d q) = .next (State.afterReset c d q)) ∧
  (∀ (i : Instr) (s t : State), exec i s = .next t → (t.status.extractLsb' 0 4 = 0 ↔ i = .clear))

/-! ## The prologue -/

/-- 40_dispatch.md R123: a command one of whose regions does not lie in BUF (the destination at its full DST_CAP) ends in
CMD_ERROR REGION_OUT_OF_RANGE, with nothing else written. -/
def Obligations.RegionOutOfRangeIsRefused : Prop :=
  ∀ s : State,
    (¬ SrcFits s ∨ ¬ DstFits s →
      exec .decode s = .next (outcome s 0x00002205 0 0 0 0) ∧
      (∀ fop fin msk, exec (.encode fop fin msk) s = .next (outcome s 0x00002205 0 0 0 0)) ∧
      exec .mask s = .next (outcome s 0x00002205 0 0 0 0)) ∧
    (¬ SrcFits s ∨ ¬ AuxFits s → exec .validate s = .next (outcome s 0x00002205 0 0 0 0))

/-- 40_dispatch.md R124: DECODE and ENCODE refuse an overlap of source and destination, MASK refuses one unless it is exactly
in place, and VALIDATE has no overlap check. -/
def Obligations.RegionOverlapIsRefused : Prop :=
  ∀ s : State,
    (SrcFits s → DstFits s → Overlapping s →
      exec .decode s = .next (outcome s 0x00002305 0 0 0 0) ∧
      (∀ fop fin msk, exec (.encode fop fin msk) s = .next (outcome s 0x00002305 0 0 0 0)) ∧
      (s.srcAddr ≠ s.dstAddr → exec .mask s = .next (outcome s 0x00002305 0 0 0 0)) ∧
      (s.srcAddr = s.dstAddr → ∀ t, exec .mask s = .next t → t.status ≠ 0x00002305)) ∧
    (∀ t, exec .validate s = .next t → t.status ≠ 0x00002305)

/-! ## What every command leaves alone -/

/-- 40_dispatch.md R128: no command reads STATUS or a result register. States that differ only there run alike. -/
def Obligations.EarlierOutcomesDoNotMatter : Prop :=
  ∀ (i : Instr) (s : State) (st fr pl ph co nl nh : Word),
    exec i { s with
      status := st, rFrame := fr, rPaylenLo := pl, rPaylenHi := ph, rConsumed := co, rNeedLo := nl, rNeedHi := nh } = exec i s

/-- 10_state.md R37, 40_dispatch.md R127: no command changes an operand register, CTRL, a parameter, or the queue; and no
step changes an operand register unless it serves a register write, a platform write or reset. -/
def Obligations.CommandsKeepTheOperands : Prop :=
  (∀ (i : Instr) (s t : State), exec i s = .next t →
    t.srcAddr = s.srcAddr ∧ t.srcLen = s.srcLen ∧ t.dstAddr = s.dstAddr ∧ t.dstCap = s.dstCap ∧
    t.auxAddr = s.auxAddr ∧ t.auxLen = s.auxLen ∧ t.ctrl = s.ctrl ∧ t.cfg = s.cfg ∧ t.pending = s.pending ∧
    t.reply = s.reply) ∧
  (∀ s t : State, step s = .next t →
    (∀ op ∈ s.pending.head?, op ≠ .reset ∧ (∀ off bits v, op ≠ .regWrite off bits v) ∧
      (∀ a bits v, op ≠ .platformWrite a bits v)) →
    t.srcAddr = s.srcAddr ∧ t.srcLen = s.srcLen ∧ t.dstAddr = s.dstAddr ∧ t.dstCap = s.dstCap ∧
    t.auxAddr = s.auxAddr ∧ t.auxLen = s.auxLen ∧ t.ctrl = s.ctrl ∧ t.maskKey = s.maskKey)

/-- 40_dispatch.md R127: a command that does not end OK changes nothing but STATUS and the result registers: no BUF byte, not
MASKKEY, no draw; one that ends in CMD_ERROR leaves the result registers 0, but for R_FRAME and R_PAYLEN of a DECODE. -/
def Obligations.FailedCommandsWriteNothing : Prop :=
  ∀ (i : Instr) (s t : State), exec i s = .next t → t.status ≠ 0x00000001 →
    t = { s with
      status := t.status, rFrame := t.rFrame, rPaylenLo := t.rPaylenLo, rPaylenHi := t.rPaylenHi
      rConsumed := t.rConsumed, rNeedLo := t.rNeedLo, rNeedHi := t.rNeedHi } ∧
    (t.status.extractLsb' 0 4 = 5 → t.rConsumed = 0 ∧ t.rNeedLo = 0 ∧ t.rNeedHi = 0 ∧
      (¬ RunsDecode i → t.rFrame = 0 ∧ t.rPaylenLo = 0 ∧ t.rPaylenHi = 0))

/-- 10_state.md R34, 20_memory.md R69: the memory frame of every instruction. Every address outside the bytes stored from
DST_ADDR on reads as before, and those bytes lie in the destination region. -/
def Obligations.MemoryFrame : Prop :=
  ∀ (i : Instr) (s t : State), exec i s = .next t →
    storedBytes i t ≤ s.dstCap.toNat ∧
    ∀ a, (a < s.dstAddr.toNat ∨ s.dstAddr.toNat + storedBytes i t ≤ a) → t.buf.read a = s.buf.read a

/-- 10_state.md R39: a command writes MASKKEY only when it ends OK and is an ENCODE with MSK = 1, or DECODE of a masked frame
(R_FRAME.MASKED = 1). -/
def Obligations.MaskKeyHasTwoWriters : Prop :=
  ∀ (i : Instr) (s t : State), exec i s = .next t → t.maskKey ≠ s.maskKey →
    t.status = 0x00000001 ∧ ((∃ fop fin, i = .encode fop fin true) ∨ (RunsDecode i ∧ t.rFrame.getLsbD 8 = true))

/-- 42_encode.md R177, 20_memory.md R71: exactly one draw for an ENCODE with MSK = 1, KEYSRC = 0 and outcome OK, whose value
is the key it leaves in MASKKEY; no draw otherwise; with KEYSRC = 1 the key is the current MASKKEY, which stays. -/
def Obligations.DrawsAreTakenOnlyByEncode : Prop :=
  ∀ (i : Instr) (s t : State), exec i s = .next t →
    ((∃ fop fin, i = .encode fop fin true) ∧ ctrlKeySrc s.ctrl = false ∧ t.status = 0x00000001 →
      t.draws = s.draws + 1 ∧ t.maskKey = Config.entropyDraw s.draws) ∧
    (¬ ((∃ fop fin, i = .encode fop fin true) ∧ ctrlKeySrc s.ctrl = false ∧ t.status = 0x00000001) → t.draws = s.draws) ∧
    ((∃ fop fin, i = .encode fop fin true) → ctrlKeySrc s.ctrl = true → t.maskKey = s.maskKey)

/-! ## DECODE -/

/-- 41_decode.md R142: fewer than two source bytes end in NEED_MORE NEED_BASE_HEADER with R_NEED = 2; no byte is read (the
buffer is arbitrary) and R_FRAME stays 0. -/
def Obligations.DecodeNeedsTwoBytes : Prop :=
  ∀ s : State, RegionsPass s → s.srcLen.toNat < 2 → exec .decode s = .next (outcome s 0x00003002 0 0 0 2)

/-- 41_decode.md R143, R144; 60_exceptions.md R240: with two bytes present the first failing check decides the PROTOCOL_ERROR,
and R_FRAME describes the offending header with LV = 0. -/
def Obligations.DecodeRejectsTheHeader : Prop :=
  ∀ (s : State) (b0 b1 : Byte) (st : Word), RegionsPass s → FirstBytes s b0 b1 →
    headerStatus (ctrlClient s.ctrl) (headerOf b0 b1) = some st →
    exec .decode s = .next (outcome s st (headerWord (headerOf b0 b1) false) 0 0 0)

/-- 41_decode.md R145: a control frame that passes the checks before is rejected when len7 is 126 or 127, whatever its
extended bytes hold, and never when len7 is at most 125. -/
def Obligations.ControlLengthIsJudgedOnLen7 : Prop :=
  ∀ (s : State) (b0 b1 : Byte), RegionsPass s → FirstBytes s b0 b1 → ControlOpcode (headerOf b0 b1).op →
    ((headerOf b0 b1).rsv = 0 → (headerOf b0 b1).fin = true →
      (ctrlClient s.ctrl = true → (headerOf b0 b1).masked = false) → 125 < (headerOf b0 b1).len7.toNat →
      exec .decode s = .next (outcome s 0x00000503 (headerWord (headerOf b0 b1) false) 0 0 0)) ∧
    ((headerOf b0 b1).len7.toNat ≤ 125 → ∀ t, exec .decode s = .next t →
      t.status ≠ 0x00000503 ∧
        (frameLV t.rFrame = true → t.rPaylenLo.toNat = (headerOf b0 b1).len7.toNat ∧ t.rPaylenHi = 0))

/-- 41_decode.md R146: with len7 = 126 two more bytes are needed, with len7 = 127 eight more; with fewer the outcome is
NEED_EXT_LEN with R_NEED = 4 or 10; otherwise R_PAYLEN is the big-endian value of those bytes, Σ e[i] · 256^(n − 1 − i), and
LV = 1. -/
def Obligations.DecodeReadsTheExtendedLength : Prop :=
  ∀ (s : State) (b0 b1 : Byte), RegionsPass s → FirstBytes s b0 b1 → HeaderAccepted s (headerOf b0 b1) →
    125 < (headerOf b0 b1).len7.toNat →
    ((headerOf b0 b1).len7 = 126 → s.srcLen.toNat < 4 →
      exec .decode s = .next (outcome s 0x00003102 (headerWord (headerOf b0 b1) false) 0 0 4)) ∧
    ((headerOf b0 b1).len7 = 127 → s.srcLen.toNat < 10 →
      exec .decode s = .next (outcome s 0x00003102 (headerWord (headerOf b0 b1) false) 0 0 10)) ∧
    (2 + extLen (headerOf b0 b1).len7 ≤ s.srcLen.toNat → ∀ t, exec .decode s = .next t →
      ∃ e, e.length = extLen (headerOf b0 b1).len7 ∧ BytesAt s.buf (s.srcAddr.toNat + 2) e ∧
        t.rPaylenHi.toNat * 0x100000000 + t.rPaylenLo.toNat = bigEndian e ∧ frameLV t.rFrame = true)

/-- 41_decode.md R147: with len7 = 127 and bit 63 of the length set, PROTOCOL_ERROR LENGTH_MSB_SET; R_PAYLEN keeps the value
read and LV = 1. -/
def Obligations.LengthMsbIsRejected : Prop :=
  ∀ (s : State) (b0 b1 : Byte) (e : List Byte) (l : Nat), RegionsPass s → FirstBytes s b0 b1 →
    HeaderAccepted s (headerOf b0 b1) → (headerOf b0 b1).len7 = 127 → LengthPresent s (headerOf b0 b1) e l → 0x8000000000000000 ≤ l →
    exec .decode s = .next (outcome s 0x00000603 (headerWord (headerOf b0 b1) true) l 0 0)

/-- 41_decode.md R148: with STRICT_LEN = 1 a length that a shorter form could hold is PROTOCOL_ERROR NON_MINIMAL_LENGTH; with
STRICT_LEN = 0 the frame continues with the length read (it ends in one of the outcomes of the later steps, R_PAYLEN that
length), and no frame is NON_MINIMAL_LENGTH. -/
def Obligations.NonMinimalLengthIsRejected : Prop :=
  ∀ (s : State),
    (∀ (b0 b1 : Byte) (e : List Byte) (l : Nat), RegionsPass s → FirstBytes s b0 b1 → HeaderAccepted s (headerOf b0 b1) →
      LengthPresent s (headerOf b0 b1) e l →
      ((headerOf b0 b1).len7 = 126 ∧ l < 126 ∨ (headerOf b0 b1).len7 = 127 ∧ l < 65536) →
      (ctrlStrictLen s.ctrl = true →
        exec .decode s = .next (outcome s 0x00000703 (headerWord (headerOf b0 b1) true) l 0 0)) ∧
      (ctrlStrictLen s.ctrl = false → ∀ t, exec .decode s = .next t →
        t.status ∈ ([0x00003202, 0x00003302, 0x00002405, 0x00000001] : List Word) ∧ t.rPaylenLo = BitVec.ofNat 32 l ∧
          t.rPaylenHi = 0 ∧ t.rFrame = headerWord (headerOf b0 b1) true)) ∧
    (ctrlStrictLen s.ctrl = false → ∀ t, exec .decode s = .next t → t.status ≠ 0x00000703)

/-- 41_decode.md R149: a masked frame whose length is known and accepted needs H bytes before its key is read; an unmasked
frame skips the step; and the step is reached only in loopback role. -/
def Obligations.DecodeNeedsTheMaskKey : Prop :=
  ∀ (s : State) (b0 b1 : Byte), RegionsPass s → FirstBytes s b0 b1 →
    (∀ (e : List Byte) (l : Nat), HeaderAccepted s (headerOf b0 b1) → LengthPresent s (headerOf b0 b1) e l →
      LengthAccepted s (headerOf b0 b1) l → (headerOf b0 b1).masked = true →
      s.srcLen.toNat < frameHdrLen (headerOf b0 b1) →
      exec .decode s =
        .next (outcome s 0x00003202 (headerWord (headerOf b0 b1) true) l 0 (frameHdrLen (headerOf b0 b1)))) ∧
    (∀ t, exec .decode s = .next t → t.status = 0x00003202 →
      (headerOf b0 b1).masked = true ∧ ctrlClient s.ctrl = false)

/-- 41_decode.md R150: fewer than H + L source bytes end in NEED_MORE NEED_PAYLOAD with R_NEED = H + L, a 64-bit value; when
H + L does not fit in 32 bits, DECODE ends in NEED_MORE for every SRC_LEN. -/
def Obligations.DecodeNeedsTheWholeFrame : Prop :=
  ∀ (s : State) (b0 b1 : Byte) (e : List Byte) (l : Nat), RegionsPass s → FirstBytes s b0 b1 →
    HeaderAccepted s (headerOf b0 b1) → LengthPresent s (headerOf b0 b1) e l → LengthAccepted s (headerOf b0 b1) l →
    ((∃ k, k.length = 4 ∧ BytesAt s.buf (s.srcAddr.toNat + 2 + extLen (headerOf b0 b1).len7) k) ∨
      (headerOf b0 b1).masked = false) →
    (frameHdrLen (headerOf b0 b1) ≤ s.srcLen.toNat → s.srcLen.toNat < frameHdrLen (headerOf b0 b1) + l →
      exec .decode s =
        .next (outcome s 0x00003302 (headerWord (headerOf b0 b1) true) l 0 (frameHdrLen (headerOf b0 b1) + l))) ∧
    (0x100000000 ≤ frameHdrLen (headerOf b0 b1) + l → ∀ n : Word, RegionsPass { s with srcLen := n } →
      ∃ t, exec .decode { s with srcLen := n } = .next t ∧ t.status.extractLsb' 0 4 = 2)

/-- 41_decode.md R151: the whole frame is present but its payload does not fit: CMD_ERROR DST_TOO_SMALL, with R_FRAME and
R_PAYLEN as read and nothing written to BUF or MASKKEY. -/
def Obligations.DecodeNeedsRoom : Prop :=
  ∀ (s : State) (b0 b1 : Byte) (e : List Byte) (l : Nat), RegionsPass s → FirstBytes s b0 b1 →
    HeaderAccepted s (headerOf b0 b1) → LengthPresent s (headerOf b0 b1) e l → LengthAccepted s (headerOf b0 b1) l →
    ((∃ k, k.length = 4 ∧ BytesAt s.buf (s.srcAddr.toNat + 2 + extLen (headerOf b0 b1).len7) k) ∨
      (headerOf b0 b1).masked = false) →
    frameHdrLen (headerOf b0 b1) + l ≤ s.srcLen.toNat → s.dstCap.toNat < l →
    exec .decode s = .next (outcome s 0x00002405 (headerWord (headerOf b0 b1) true) l 0 0)

/-- 41_decode.md R153: DECODE of a whole accepted frame at the start of the source region; bytes after the frame are not read.
The second clause, that the frame_b1 row of its byte 1 does the same, rests on log entry 6: what a frame row means is the
model's choice. -/
def Obligations.DecodeDeliversThePayload : Prop :=
  ∀ (s : State) (h : FrameHeader) (ext : List Byte) (key : Option Word) (data : List Byte), WholeFrame s h ext key data →
    exec .decode s = .next (decoded s h ext key data) ∧
    exec (.frameB1 h.masked h.len7) s = .next (decoded s h ext key data)

/-- The rows of the six accepted frame opcodes (30_encoding.md R88): a whole accepted frame whose byte 0 is the row's byte is
decoded by that row, to the state of 41_decode.md R153. What a frame row means is the model's choice, log entry 6. -/
def Obligations.AcceptedFrameRowsComplete : Prop :=
  ∀ (s : State) (h : FrameHeader) (ext : List Byte) (key : Option Word) (data : List Byte), WholeFrame s h ext key data →
    (h.op = 0x0 → exec (.frameContinuation h.fin h.rsv) s = .next (decoded s h ext key data)) ∧
    (h.op = 0x1 → exec (.frameText h.fin h.rsv) s = .next (decoded s h ext key data)) ∧
    (h.op = 0x2 → exec (.frameBinary h.fin h.rsv) s = .next (decoded s h ext key data)) ∧
    (h.op = 0x8 → exec (.frameClose h.fin h.rsv) s = .next (decoded s h ext key data)) ∧
    (h.op = 0x9 → exec (.framePing h.fin h.rsv) s = .next (decoded s h ext key data)) ∧
    (h.op = 0xA → exec (.framePong h.fin h.rsv) s = .next (decoded s h ext key data))

/-- 30_encoding.md R95: a reserved frame opcode is illegal on both paths. DECODE of it ends in PROTOCOL_ERROR RESERVED_OPCODE
for every FIN and byte 1 (with RSV = 0: RSV is judged first, 41_decode.md R144), and ENCODE refuses it as FOP with
ENC_BAD_OPCODE. The ten frame rows, for every RSV, are the first clause: they hold in states whose source has any byte 0, so
they rest on log entry 6, the model's choice of what a frame row means. -/
def Obligations.ReservedFrameOpcodesAreRefused : Prop :=
  ∀ (s : State) (fin : Bool) (b1 : Byte), RegionsPass s →
    (2 ≤ s.srcLen.toNat → s.buf.read (s.srcAddr.toNat + 1) = some b1 → ∀ (rsv : BitVec 3) (st : Word),
      st = (if rsv = 0 then 0x00000203 else 0x00000103) →
      exec (.frameReserved3 fin rsv) s = .next (outcome s st (headerWord (headerOf (byte0Of 0x3 fin rsv) b1) false) 0 0 0) ∧
      exec (.frameReserved4 fin rsv) s = .next (outcome s st (headerWord (headerOf (byte0Of 0x4 fin rsv) b1) false) 0 0 0) ∧
      exec (.frameReserved5 fin rsv) s = .next (outcome s st (headerWord (headerOf (byte0Of 0x5 fin rsv) b1) false) 0 0 0) ∧
      exec (.frameReserved6 fin rsv) s = .next (outcome s st (headerWord (headerOf (byte0Of 0x6 fin rsv) b1) false) 0 0 0) ∧
      exec (.frameReserved7 fin rsv) s = .next (outcome s st (headerWord (headerOf (byte0Of 0x7 fin rsv) b1) false) 0 0 0) ∧
      exec (.frameReservedB fin rsv) s = .next (outcome s st (headerWord (headerOf (byte0Of 0xB fin rsv) b1) false) 0 0 0) ∧
      exec (.frameReservedC fin rsv) s = .next (outcome s st (headerWord (headerOf (byte0Of 0xC fin rsv) b1) false) 0 0 0) ∧
      exec (.frameReservedD fin rsv) s = .next (outcome s st (headerWord (headerOf (byte0Of 0xD fin rsv) b1) false) 0 0 0) ∧
      exec (.frameReservedE fin rsv) s = .next (outcome s st (headerWord (headerOf (byte0Of 0xE fin rsv) b1) false) 0 0 0) ∧
      exec (.frameReservedF fin rsv) s = .next (outcome s st (headerWord (headerOf (byte0Of 0xF fin rsv) b1) false) 0 0 0)) ∧
    (∀ op : BitVec 4, (3 ≤ op.toNat ∧ op.toNat ≤ 7) ∨ 11 ≤ op.toNat → FirstBytes s (byte0Of op fin 0) b1 →
      exec .decode s = .next (outcome s 0x00000203 (headerWord (headerOf (byte0Of op fin 0) b1) false) 0 0 0)) ∧
    (∀ (fop : BitVec 4) (msk : Bool), (3 ≤ fop.toNat ∧ fop.toNat ≤ 7) ∨ 11 ≤ fop.toNat →
      exec (.encode fop fin msk) s = .next (outcome s 0x00002505 0 0 0 0))

/-- 41_decode.md R155: partial-read resilience. Where DECODE accepts a frame, of R_CONSUMED bytes, then with any shorter
SRC_LEN it ends in NEED_MORE; and in any state with the same registers whose buffer holds the same frame, and whose SRC_LEN
covers it, whatever the bytes after it, it ends OK with the same R_FRAME, R_PAYLEN, R_CONSUMED, MASKKEY and destination
bytes. -/
def Obligations.PartialReadResilience : Prop :=
  ∀ s t : State, exec .decode s = .next t → t.status = 0x00000001 →
    (∀ n : Word, n.toNat < t.rConsumed.toNat →
      ∃ u, exec .decode { s with srcLen := n } = .next u ∧ u.status.extractLsb' 0 4 = 2) ∧
    (∀ (n : Word) (m : Memory), t.rConsumed.toNat ≤ n.toNat →
      (∀ i < t.rConsumed.toNat, m.read (s.srcAddr.toNat + i) = s.buf.read (s.srcAddr.toNat + i)) →
      RegionsPass { s with srcLen := n } →
      ∃ u, exec .decode { s with srcLen := n, buf := m } = .next u ∧ u.status = 0x00000001 ∧ u.rFrame = t.rFrame ∧
        u.rPaylenLo = t.rPaylenLo ∧ u.rPaylenHi = t.rPaylenHi ∧ u.rConsumed = t.rConsumed ∧ u.maskKey = t.maskKey ∧
        ∀ i < t.rPaylenHi.toNat * 0x100000000 + t.rPaylenLo.toNat,
          u.buf.read (s.dstAddr.toNat + i) = t.buf.read (s.dstAddr.toNat + i))

/-! ## ENCODE -/

/-- 42_encode.md R172, R176: the argument sets that break the data model are refused with CMD_ERROR, in order; then a frame
that does not fit in DST_CAP, with DST_TOO_SMALL. Nothing is written, no draw is taken, and the result registers stay 0. -/
def Obligations.EncodeRefusals : Prop :=
  ∀ (s : State) (fop : BitVec 4) (fin msk : Bool), RegionsPass s →
    (∀ st, argumentStatus (ctrlClient s.ctrl) fop fin msk s.srcLen.toNat = some st →
      exec (.encode fop fin msk) s = .next (outcome s st 0 0 0 0)) ∧
    (argumentStatus (ctrlClient s.ctrl) fop fin msk s.srcLen.toNat = none →
      s.dstCap.toNat < lawHdrLen s.srcLen.toNat msk + s.srcLen.toNat →
      exec (.encode fop fin msk) s = .next (outcome s 0x00002405 0 0 0 0))

/-- 42_encode.md R175, R177, R178, R179: ENCODE writes the frame of its payload in its minimal form with RSV = 0; R_FRAME,
R_PAYLEN, R_CONSUMED describe it and, with MSK = 1, MASKKEY holds the key used: MASKKEY itself with KEYSRC = 1, the next draw
(a free value, whatever it is) with KEYSRC = 0. -/
def Obligations.EncodeWritesTheFrame : Prop :=
  ∀ (s : State) (fop : BitVec 4) (fin msk : Bool) (p : List Byte), RegionsPass s →
    argumentStatus (ctrlClient s.ctrl) fop fin msk p.length = none → p.length = s.srcLen.toNat →
    BytesAt s.buf s.srcAddr.toNat p → lawHdrLen p.length msk + p.length ≤ s.dstCap.toNat →
    exec (.encode fop fin msk) s = .next
      { outcome s 0x00000001 (headerWord ⟨fop, 0, fin, msk, encodeLen7 p.length⟩ true) p.length
          (lawHdrLen p.length msk + p.length) 0 with
        buf := s.buf.writeBytes s.dstAddr.toNat (encodedFrame s fop fin msk p)
        maskKey := (keyUsed s msk).getD s.maskKey
        draws := s.draws + if msk = true ∧ ctrlKeySrc s.ctrl = false then 1 else 0 }

/-- 42_encode.md R181: the header length law. -/
def Obligations.EncodedHeaderLengthLaw : Prop :=
  ∀ (s t : State) (fop : BitVec 4) (fin msk : Bool), exec (.encode fop fin msk) s = .next t → t.status = 0x00000001 →
    (t.rFrame.extractLsb' 16 4).toNat = lawHdrLen s.srcLen.toNat msk ∧
    t.rConsumed.toNat = (t.rFrame.extractLsb' 16 4).toNat + s.srcLen.toNat

/-- 42_encode.md R174, R173: the length form ENCODE chooses is the minimal one and decodes to the length, so no frame it
writes fails DECODE's length checks. 00_scope.md R11, 20_memory.md R65: the value of wire bytes is the sum of
e[i] · 256^(n − 1 − i), and the n bytes written for a number have the most significant first. -/
def Obligations.EncodedLengthIsMinimalAndBigEndian : Prop :=
  (∀ bs : List Byte, beValue bs = bigEndian bs) ∧
  (∀ v n : Nat, (beBytes v n).length = n ∧
    ∀ i < n, (beBytes v n)[i]? = some (BitVec.ofNat 8 (v / 256 ^ (n - 1 - i)))) ∧
  ∀ (l : Nat) (strict : Bool), l < 0x100000000 →
    (encodeExt l).length = extLen (encodeLen7 l) ∧ wireLength (encodeLen7 l) (encodeExt l) = l ∧
      ((encodeLen7 l = 126 → 126 ≤ l) ∧ (encodeLen7 l = 127 → 65536 ≤ l)) ∧ lengthCheck strict (encodeLen7 l) l = none

/-- 42_encode.md R180: the round-trip law. In loopback role, with STRICT_LEN either 0 or 1, DECODE of what ENCODE wrote ends
OK and gives back R_FRAME, R_PAYLEN, the encoded length, the key used and the payload; in client role ENCODE refuses MSK = 0
and DECODE accepts no masked frame, so the law holds for no MSK. -/
def Obligations.RoundTripInLoopback : Prop :=
  (∀ (s t d : State) (fop : BitVec 4) (fin msk : Bool), ctrlClient s.ctrl = false →
    exec (.encode fop fin msk) s = .next t → t.status = 0x00000001 →
    d.buf = t.buf → ctrlClient d.ctrl = false → d.srcAddr = s.dstAddr → d.srcLen = t.rConsumed →
    s.srcLen.toNat ≤ d.dstCap.toNat → RegionsPass d →
    ∃ u, exec .decode d = .next u ∧ u.status = 0x00000001 ∧ u.rFrame = t.rFrame ∧ u.rPaylenLo = t.rPaylenLo ∧
      u.rPaylenHi = t.rPaylenHi ∧ u.rConsumed = t.rConsumed ∧
      u.rConsumed.toNat = lawHdrLen s.srcLen.toNat msk + s.srcLen.toNat ∧ (msk = true → u.maskKey = t.maskKey) ∧
      ∀ i < s.srcLen.toNat, u.buf.read (d.dstAddr.toNat + i) = s.buf.read (s.srcAddr.toNat + i)) ∧
  (∀ (s t : State) (fop : BitVec 4) (fin : Bool), ctrlClient s.ctrl = true →
    (exec (.encode fop fin false) s = .next t → t.status ≠ 0x00000001) ∧
    (exec .decode s = .next t → t.status = 0x00000001 → t.rFrame.getLsbD 8 = false))

/-! ## MASK -/

/-- 30_encoding.md R93, 10_state.md R40: byte i is XORed with key byte i mod 4, which stands in MASKKEY[31−8j : 24−8j]; the
kernel is an involution. R92, R40: on the wire the key bytes stand in that order, key byte 0, MASKKEY[31:24], first.
41_decode.md R153, 42_encode.md R178: a payload is put through the kernel under its key, and without a key it is copied
unchanged. -/
def Obligations.XorKernelAndKeyOrder : Prop :=
  (∀ bs : List Byte, maskedWith none bs = bs ∧ ∀ k, maskedWith (some k) bs = xorMask k bs) ∧
  (∀ k : Word, keyBytes k = [k.extractLsb' 24 8, k.extractLsb' 16 8, k.extractLsb' 8 8, k.extractLsb' 0 8] ∧
    keyWord (keyBytes k) = k) ∧
  (∀ k0 k1 k2 k3 : Byte, keyWord [k0, k1, k2, k3] = k0 ++ k1 ++ k2 ++ k3 ∧
    keyBytes (keyWord [k0, k1, k2, k3]) = [k0, k1, k2, k3]) ∧
  ∀ (k : Word) (bs : List Byte),
    (xorMask k bs).length = bs.length ∧
    (∀ i (h : i < bs.length), (xorMask k bs)[i]? = some (bs[i] ^^^ (k.extractLsb' (24 - 8 * (i % 4)) 8))) ∧
    xorMask k (xorMask k bs) = bs

/-- 43_mask.md R190, R191: MASK of a source that is written and fits in DST_CAP stores its bytes under the kernel with
MASKKEY and reports SRC_LEN; one that does not fit ends in DST_TOO_SMALL. KEYSRC is not read. -/
def Obligations.MaskStoresTheKernel : Prop :=
  ∀ s : State, MaskRegionsPass s →
    (s.dstCap.toNat < s.srcLen.toNat → exec .mask s = .next (outcome s 0x00002405 0 0 0 0)) ∧
    (∀ p : List Byte, p.length = s.srcLen.toNat → BytesAt s.buf s.srcAddr.toNat p → s.srcLen.toNat ≤ s.dstCap.toNat →
      exec .mask s = .next { outcome s 0x00000001 0 0 p.length 0 with
        buf := s.buf.writeBytes s.dstAddr.toNat (xorMask s.maskKey p) })

/-- 43_mask.md R192: the involution law, in place (every byte of BUF is as it was) and through a second region. -/
def Obligations.MaskTwiceRestores : Prop :=
  (∀ s t : State, exec .mask s = .next t → t.status = 0x00000001 → s.srcAddr = s.dstAddr →
    ∃ u, exec .mask t = .next u ∧ u.status = 0x00000001 ∧ ∀ a, u.buf.read a = s.buf.read a) ∧
  (∀ s t v u : State, exec .mask s = .next t → t.status = 0x00000001 → v.buf = t.buf → v.maskKey = s.maskKey →
    v.srcAddr = s.dstAddr → v.srcLen = s.srcLen → exec .mask v = .next u → u.status = 0x00000001 →
    ∀ i < s.srcLen.toNat, u.buf.read (v.dstAddr.toNat + i) = s.buf.read (s.srcAddr.toNat + i))

/-- 43_mask.md R193: MASK agrees with ENCODE's payload bytes after the header, and with DECODE's destination bytes. -/
def Obligations.MaskAgreesWithTheCodec : Prop :=
  (∀ (s t m u : State) (fop : BitVec 4) (fin : Bool), exec (.encode fop fin true) s = .next t → t.status = 0x00000001 →
    exec .mask m = .next u → u.status = 0x00000001 → m.maskKey = t.maskKey → m.srcLen = s.srcLen →
    (∀ i < s.srcLen.toNat, m.buf.read (m.srcAddr.toNat + i) = s.buf.read (s.srcAddr.toNat + i)) →
    ∀ i < s.srcLen.toNat, u.buf.read (m.dstAddr.toNat + i) =
      t.buf.read (s.dstAddr.toNat + (t.rFrame.extractLsb' 16 4).toNat + i)) ∧
  (∀ s t m u : State, exec .decode s = .next t → t.status = 0x00000001 → t.rFrame.getLsbD 8 = true →
    exec .mask m = .next u → u.status = 0x00000001 → m.maskKey = t.maskKey → m.srcLen = t.rPaylenLo →
    (∀ i < m.srcLen.toNat, m.buf.read (m.srcAddr.toNat + i) =
      s.buf.read (s.srcAddr.toNat + (t.rFrame.extractLsb' 16 4).toNat + i)) →
    ∀ i < m.srcLen.toNat, u.buf.read (m.dstAddr.toNat + i) = t.buf.read (s.dstAddr.toNat + i))

/-! ## VALIDATE -/

/-- 44_validate.md R210: AUX_LEN = 0 is CMD_ERROR AUX_EMPTY before any source byte is read (the buffer is arbitrary). -/
def Obligations.ValidateNeedsAnExpectedValue : Prop :=
  ∀ s : State, SrcFits s → AuxFits s → s.auxLen.toNat = 0 → exec .validate s = .next (outcome s 0x00002905 0 0 0 0)

/-- 44_validate.md R204: with no CR LF CR LF in the source region VALIDATE ends in NEED_MORE NEED_HEADER_END with R_NEED =
SRC_LEN + 1 and R_CONSUMED = 0. -/
def Obligations.ValidateNeedsTheHeaderEnd : Prop :=
  ∀ (s : State) (p : List Byte), ValidateRuns s → p.length = s.srcLen.toNat → BytesAt s.buf s.srcAddr.toNat p →
    (∀ i, i + 4 ≤ p.length → (p.drop i).take 4 ≠ [0x0D, 0x0A, 0x0D, 0x0A]) →
    exec .validate s = .next (outcome s 0x00003402 0 0 0 (s.srcLen.toNat + 1))

/-- 44_validate.md R209, R205: a complete block with the 101 status line and exactly one Upgrade, Connection and
Sec-WebSocket-Accept header of the required values, the last equal to the auxiliary region byte for byte, ends OK, with
R_CONSUMED the block's length with its terminator. -/
def Obligations.ValidateAcceptsTheUpgrade : Prop :=
  ∀ (s : State) (b up conn acc : List Byte), ValidateRuns s → BlockPresent s b →
    statusLineOk ((splitLines b).headD []) = true →
    valuesOf txtUpgrade (blockFields b) = [up] → ieq up txtWebsocket = true →
    valuesOf txtConnection (blockFields b) = [conn] → ieq conn txtUpgrade = true →
    valuesOf txtAccept (blockFields b) = [acc] → acc.length = s.auxLen.toNat → BytesAt s.buf s.auxAddr.toNat acc →
    exec .validate s = .next (outcome s 0x00000001 0 0 (b.length + 4) 0)

/-- 44_validate.md R206, R208, R209; 60_exceptions.md R240: the failures of a complete block in their order; each ends in
HANDSHAKE_FAILED with R_CONSUMED the block's length with its terminator. -/
def Obligations.ValidateReportsTheFirstFailure : Prop :=
  ∀ (s : State) (b : List Byte), ValidateRuns s → BlockPresent s b →
    (statusLineOk ((splitLines b).headD []) = false →
      exec .validate s = .next (outcome s 0x00001004 0 0 (b.length + 4) 0)) ∧
    (statusLineOk ((splitLines b).headD []) = true →
      ((1 < (valuesOf txtUpgrade (blockFields b)).length ∨ 1 < (valuesOf txtConnection (blockFields b)).length ∨
          1 < (valuesOf txtAccept (blockFields b)).length) →
        exec .validate s = .next (outcome s 0x00001104 0 0 (b.length + 4) 0)) ∧
      ((valuesOf txtUpgrade (blockFields b)).length ≤ 1 ∧ (valuesOf txtConnection (blockFields b)).length ≤ 1 ∧
          (valuesOf txtAccept (blockFields b)).length ≤ 1 →
        ((∀ u ∈ valuesOf txtUpgrade (blockFields b), ieq u txtWebsocket = false) →
          exec .validate s = .next (outcome s 0x00001204 0 0 (b.length + 4) 0)) ∧
        ((∃ u ∈ valuesOf txtUpgrade (blockFields b), ieq u txtWebsocket = true) →
          ((∀ c ∈ valuesOf txtConnection (blockFields b), ieq c txtUpgrade = false) →
            exec .validate s = .next (outcome s 0x00001304 0 0 (b.length + 4) 0)) ∧
          ((∃ c ∈ valuesOf txtConnection (blockFields b), ieq c txtUpgrade = true) →
            (valuesOf txtAccept (blockFields b) = [] →
              exec .validate s = .next (outcome s 0x00001404 0 0 (b.length + 4) 0)) ∧
            (∀ acc x : List Byte, valuesOf txtAccept (blockFields b) = [acc] → x.length = s.auxLen.toNat →
              BytesAt s.buf s.auxAddr.toNat x → acc ≠ x →
              exec .validate s = .next (outcome s 0x00001504 0 0 (b.length + 4) 0))))))

/-- 44_validate.md R206: the status line passes iff it begins with the 12 bytes "HTTP/1.1 101" and then ends or continues
with SP. -/
def Obligations.StatusLineTest : Prop :=
  ∀ l : List Byte, statusLineOk l = true ↔
    12 ≤ l.length ∧ l.take 12 = [0x48, 0x54, 0x54, 0x50, 0x2F, 0x31, 0x2E, 0x31, 0x20, 0x31, 0x30, 0x31] ∧
      (l.length = 12 ∨ l[12]? = some 0x20)

/-- 44_validate.md R203: cutting at CR LF loses nothing and leaves no CR LF inside a line: the lines joined by CR LF are the
block. R201 step 4, R207: the fields are those of the lines after the status line; a line without ':' has none, and a line with
one has the bytes before its first ':' as name and the bytes after it without leading and trailing SP and HT as value; the
values of a name are those of the fields whose name equals it but for the case of ASCII letters (00_scope.md R14). The names
compared are "Upgrade", "Connection", "Sec-WebSocket-Accept" and the value "websocket". -/
def Obligations.LinesAndFieldsOfTheBlock : Prop :=
  (∀ b : List Byte, splitLines b ≠ [] ∧ ([0x0D, 0x0A] : List Byte).intercalate (splitLines b) = b ∧
    ∀ l ∈ splitLines b, ∀ i, i + 2 ≤ l.length → (l.drop i).take 2 ≠ [0x0D, 0x0A]) ∧
  (∀ b : List Byte, blockFields b = (splitLines b).tail.filterMap headerField) ∧
  (∀ l : List Byte, 0x3A ∉ l → headerField l = none) ∧
  (∀ name rest : List Byte, 0x3A ∉ name →
    ∃ lead value trail, headerField (name ++ 0x3A :: rest) = some (name, value) ∧ rest = lead ++ value ++ trail ∧
      (∀ x ∈ lead, SpaceOrTab x) ∧ (∀ x ∈ trail, SpaceOrTab x) ∧
      (∀ x ∈ value.head?, ¬ SpaceOrTab x) ∧ (∀ x ∈ value.getLast?, ¬ SpaceOrTab x)) ∧
  (∀ b : Byte, (0x41 ≤ b.toNat ∧ b.toNat ≤ 0x5A → (lower b).toNat = b.toNat + 0x20) ∧
    (¬ (0x41 ≤ b.toNat ∧ b.toNat ≤ 0x5A) → lower b = b)) ∧
  (∀ p q : List Byte, ieq p q = true ↔ p.length = q.length ∧
    ∀ i < p.length, ∀ x ∈ p[i]?, ∀ y ∈ q[i]?, lower x = lower y) ∧
  (∀ (name : List Byte) (f : List Byte × List Byte) (fs : List (List Byte × List Byte)),
    valuesOf name [] = [] ∧ (ieq f.1 name = true → valuesOf name (f :: fs) = f.2 :: valuesOf name fs) ∧
    (ieq f.1 name = false → valuesOf name (f :: fs) = valuesOf name fs)) ∧
  txtUpgrade = [0x55, 0x70, 0x67, 0x72, 0x61, 0x64, 0x65] ∧
  txtConnection = [0x43, 0x6F, 0x6E, 0x6E, 0x65, 0x63, 0x74, 0x69, 0x6F, 0x6E] ∧
  txtAccept = [0x53, 0x65, 0x63, 0x2D, 0x57, 0x65, 0x62, 0x53, 0x6F, 0x63, 0x6B, 0x65, 0x74, 0x2D, 0x41, 0x63, 0x63, 0x65,
    0x70, 0x74] ∧
  txtWebsocket = [0x77, 0x65, 0x62, 0x73, 0x6F, 0x63, 0x6B, 0x65, 0x74]

/-- 44_validate.md R212: once the source region holds a CR LF CR LF, the outcome and R_CONSUMED depend only on the bytes up to
and including the first one and on the auxiliary region: two states, each other register, parameter and byte of theirs as it
may be, whose regions are both in range (or both auxiliary regions out of it) and that agree in those bytes. -/
def Obligations.ValidateDependsOnTheBlockOnly : Prop :=
  ∀ (s s' t : State) (b : List Byte), SrcFits s → SrcFits s' → (AuxFits s ↔ AuxFits s') → BlockPresent s b →
    BlockPresent s' b → s'.auxLen = s.auxLen →
    (∀ i < s.auxLen.toNat, s'.buf.read (s'.auxAddr.toNat + i) = s.buf.read (s.auxAddr.toNat + i)) →
    exec .validate s = .next t →
    ∃ t', exec .validate s' = .next t' ∧ t'.status = t.status ∧ t'.rConsumed = t.rConsumed

/-! ## The host's side -/

/-- 70_reset_and_hazards.md R280, R281; 10_state.md R47: the state after reset, for every machine, register by register, with
every byte unwritten; and reset from any state leaves it. -/
def Obligations.ResetLeaves : Prop :=
  ∀ (s : State) (rest : List HostOp), s.pending = .reset :: rest →
    ∃ t, step s = .next t ∧ t.cfg = s.cfg ∧ t.pending = rest ∧ t.draws = s.draws ∧
      (∀ off, t.readOffset off = windowValue t off) ∧
      (∀ off, windowValue t off = if off = 0x00 then 0x57534631 else if off = 0x04 then 0x00000003 else 0) ∧
      (∀ a, t.buf.read a = none)

/-- 10_state.md R47, R22, R27, R28, R38; 20_memory.md R69: the register window, offset by offset. A 32-bit read answers the
register at the offset (ID "WSF1", CMD and every offset without a register 0) and changes nothing else; a 32-bit write other
than to CMD changes the RW register at its offset (CTRL keeps its three mode bits), and nothing at any other offset. R24-R26:
CTRL.CLIENT is bit 0, STRICT_LEN bit 1, KEYSRC bit 2. -/
def Obligations.RegisterWindow : Prop :=
  (∀ w : Word, ctrlClient w = w.getLsbD 0 ∧ ctrlStrictLen w = w.getLsbD 1 ∧ ctrlKeySrc w = w.getLsbD 2) ∧
  ∀ (s : State) (rest : List HostOp) (off : Nat), off % 4 = 0 → off < 0x100 →
    (s.pending = .regRead off 32 :: rest → step s = .next { s.taken rest with reply := .word (windowValue s off) }) ∧
    (∀ v : Word, s.pending = .regWrite off 32 v :: rest → off ≠ 0x08 → step s = .next (windowWritten (s.taken rest) off v))

/-- 10_state.md R21: a register access that is not 32 bits wide, or not at a multiple of 4, or not below 0x100, is a host
refusal. -/
def Obligations.BadRegisterAccessIsRefused : Prop :=
  ∀ (s : State) (rest : List HostOp) (off bits : Nat) (v : Word), bits ≠ 32 ∨ off % 4 ≠ 0 ∨ 0x100 ≤ off →
    (s.pending = .regWrite off bits v :: rest → step s = .refused (.registerAccess off bits)) ∧
    (s.pending = .regRead off bits :: rest → step s = .refused (.registerAccess off bits))

/-- 20_memory.md R62: the host's buffer transactions. Below BUF_SIZE a byte is stored and read; at or above it the transaction
is refused; a wide write is the four byte writes v[7:0] to a, v[15:8] to a + 1 and so on, a wide read the same lanes; a
misaligned wide access is refused. -/
def Obligations.HostBufferAccess : Prop :=
  ∀ (s : State) (a : Nat) (b : Byte) (v : Word),
    (a < s.cfg.bufSize →
      serve (.bufWrite a b) s = .next { s with buf := s.buf.write a b } ∧
      (s.buf.read a = some b → serve (.bufRead a) s = .next { s with reply := .byte b })) ∧
    (s.cfg.bufSize ≤ a → serve (.bufWrite a b) s = .refused (.bufferAddress a) ∧
      serve (.bufRead a) s = .refused (.bufferAddress a)) ∧
    (a % 4 = 0 → a + 4 ≤ s.cfg.bufSize →
      serve (.bufWriteWide a v) s = .next { s with buf := laneStored s.buf a v } ∧
      (s.buf.read a = some (v.extractLsb' 0 8) → s.buf.read (a + 1) = some (v.extractLsb' 8 8) →
        s.buf.read (a + 2) = some (v.extractLsb' 16 8) → s.buf.read (a + 3) = some (v.extractLsb' 24 8) →
        serve (.bufReadWide a) s = .next { s with reply := .word v })) ∧
    (a % 4 = 0 → s.cfg.bufSize < a + 4 → serve (.bufWriteWide a v) s = .refused (.bufferAddress a) ∧
      serve (.bufReadWide a) s = .refused (.bufferAddress a)) ∧
    (a % 4 ≠ 0 → serve (.bufWriteWide a v) s = .refused (.bufferMisaligned a) ∧
      serve (.bufReadWide a) s = .refused (.bufferMisaligned a))

/-- 20_memory.md R63: a command's or the host's read of a byte that was never written is a model fault. The host's byte and
32-bit reads; DECODE at byte 0, byte 1, an extended length byte, a key byte and a payload byte; ENCODE and MASK at a source
byte; VALIDATE at a source byte before the end of the header block (log entry 8: the bytes it reads) and at an auxiliary byte. Each
names the first unwritten address. -/
def Obligations.UnwrittenReadsFault : Prop :=
  ∀ s : State,
    (∀ a, a < s.cfg.bufSize → s.buf.read a = none → serve (.bufRead a) s = .fault (.unwrittenByte a)) ∧
    (∀ (a : Nat) (p : List Byte), a % 4 = 0 → a + 4 ≤ s.cfg.bufSize → UnwrittenAfter s.buf a 4 p →
      serve (.bufReadWide a) s = .fault (.unwrittenByte (a + p.length))) ∧
    (∀ p : List Byte, RegionsPass s → 2 ≤ s.srcLen.toNat → UnwrittenAfter s.buf s.srcAddr.toNat 2 p →
      exec .decode s = .fault (.unwrittenByte (s.srcAddr.toNat + p.length))) ∧
    (∀ (b0 b1 : Byte) (p : List Byte), RegionsPass s → FirstBytes s b0 b1 → HeaderAccepted s (headerOf b0 b1) →
      2 + extLen (headerOf b0 b1).len7 ≤ s.srcLen.toNat →
      UnwrittenAfter s.buf (s.srcAddr.toNat + 2) (extLen (headerOf b0 b1).len7) p →
      exec .decode s = .fault (.unwrittenByte (s.srcAddr.toNat + 2 + p.length))) ∧
    (∀ (b0 b1 : Byte) (e p : List Byte) (l : Nat), RegionsPass s → FirstBytes s b0 b1 → HeaderAccepted s (headerOf b0 b1) →
      LengthPresent s (headerOf b0 b1) e l → LengthAccepted s (headerOf b0 b1) l →
      frameHdrLen (headerOf b0 b1) ≤ s.srcLen.toNat →
      ((headerOf b0 b1).masked = true →
        UnwrittenAfter s.buf (s.srcAddr.toNat + 2 + extLen (headerOf b0 b1).len7) 4 p →
        exec .decode s = .fault (.unwrittenByte (s.srcAddr.toNat + 2 + extLen (headerOf b0 b1).len7 + p.length))) ∧
      (((∃ k, k.length = 4 ∧ BytesAt s.buf (s.srcAddr.toNat + 2 + extLen (headerOf b0 b1).len7) k) ∨
          (headerOf b0 b1).masked = false) →
        frameHdrLen (headerOf b0 b1) + l ≤ s.srcLen.toNat → l ≤ s.dstCap.toNat →
        UnwrittenAfter s.buf (s.srcAddr.toNat + frameHdrLen (headerOf b0 b1)) l p →
        exec .decode s = .fault (.unwrittenByte (s.srcAddr.toNat + frameHdrLen (headerOf b0 b1) + p.length)))) ∧
    (∀ (fop : BitVec 4) (fin msk : Bool) (p : List Byte), RegionsPass s →
      argumentStatus (ctrlClient s.ctrl) fop fin msk s.srcLen.toNat = none →
      lawHdrLen s.srcLen.toNat msk + s.srcLen.toNat ≤ s.dstCap.toNat →
      UnwrittenAfter s.buf s.srcAddr.toNat s.srcLen.toNat p →
      exec (.encode fop fin msk) s = .fault (.unwrittenByte (s.srcAddr.toNat + p.length))) ∧
    (∀ p : List Byte, MaskRegionsPass s → s.srcLen.toNat ≤ s.dstCap.toNat →
      UnwrittenAfter s.buf s.srcAddr.toNat s.srcLen.toNat p →
      exec .mask s = .fault (.unwrittenByte (s.srcAddr.toNat + p.length))) ∧
    (∀ p : List Byte, ValidateRuns s → 4 ≤ s.srcLen.toNat → UnwrittenAfter s.buf s.srcAddr.toNat s.srcLen.toNat p →
      (∀ i, i + 4 ≤ p.length → (p.drop i).take 4 ≠ [0x0D, 0x0A, 0x0D, 0x0A]) →
      exec .validate s = .fault (.unwrittenByte (s.srcAddr.toNat + p.length))) ∧
    (∀ b up conn acc p : List Byte, ValidateRuns s → BlockPresent s b →
      statusLineOk ((splitLines b).headD []) = true →
      valuesOf txtUpgrade (blockFields b) = [up] → ieq up txtWebsocket = true →
      valuesOf txtConnection (blockFields b) = [conn] → ieq conn txtUpgrade = true →
      valuesOf txtAccept (blockFields b) = [acc] → UnwrittenAfter s.buf s.auxAddr.toNat s.auxLen.toNat p →
      exec .validate s = .fault (.unwrittenByte (s.auxAddr.toNat + p.length)))

/-- 20_memory.md R64: an access of any width at REG_BASE + off is the register access of that width at off, and a byte or 32-bit
access at BUF_BASE + a the buffer access at a, wherever the platform places two windows that do not overlap. That an access of
another width in the buffer window is refused is log entry 10, that one in neither window is, log entry 4: the model's
choices. -/
def Obligations.PlatformWindows : Prop :=
  ∀ s : State, s.cfg.bufBase + s.cfg.bufSize ≤ s.cfg.regBase ∨ s.cfg.regBase + 0x100 ≤ s.cfg.bufBase →
    (∀ off < 0x100, ∀ bits,
      (∀ v, serve (.platformWrite (s.cfg.regBase + off) bits v) s = serve (.regWrite off bits v) s) ∧
      serve (.platformRead (s.cfg.regBase + off) bits) s = serve (.regRead off bits) s) ∧
    (∀ a < s.cfg.bufSize,
      (∀ v : Word, serve (.platformWrite (s.cfg.bufBase + a) 8 v) s = serve (.bufWrite a (v.setWidth 8)) s ∧
        serve (.platformWrite (s.cfg.bufBase + a) 32 v) s = serve (.bufWriteWide a v) s) ∧
      serve (.platformRead (s.cfg.bufBase + a) 8) s = serve (.bufRead a) s ∧
      serve (.platformRead (s.cfg.bufBase + a) 32) s = serve (.bufReadWide a) s ∧
      ∀ bits, bits ≠ 8 → bits ≠ 32 →
        (∀ v, serve (.platformWrite (s.cfg.bufBase + a) bits v) s = .refused (.bufferWidth bits)) ∧
        serve (.platformRead (s.cfg.bufBase + a) bits) s = .refused (.bufferWidth bits)) ∧
    (∀ addr, (addr < s.cfg.regBase ∨ s.cfg.regBase + 0x100 ≤ addr) →
      (addr < s.cfg.bufBase ∨ s.cfg.bufBase + s.cfg.bufSize ≤ addr) → ∀ bits,
      (∀ v, serve (.platformWrite addr bits v) s = .refused (.outsideWindows addr)) ∧
      serve (.platformRead addr bits) s = .refused (.outsideWindows addr))

/-- 20_memory.md R60, R73: a byte read is the byte last written at its address; other addresses are not touched. Writing keeps
the canonical form of BUF: the addresses of its written bytes strictly rising. -/
def Obligations.BufferReadsTheLastWrite : Prop :=
  (∀ m : Memory, (m.wf = true ↔ m.Pairwise fun c d => c.1 < d.1) ∧
    ∀ n, m.below n = true ↔ ∀ c ∈ m, c.1 < n) ∧
  (∀ (m : Memory) (a : Nat) (b : Byte), (m.write a b).read a = some b ∧ ∀ x, x ≠ a → (m.write a b).read x = m.read x) ∧
  ∀ (m : Memory) (a : Nat) (bs : List Byte),
    (∀ i (h : i < bs.length), (m.writeBytes a bs).read (a + i) = some bs[i]) ∧
    (∀ x, x < a ∨ a + bs.length ≤ x → (m.writeBytes a bs).read x = m.read x) ∧
    (m.wf = true → (m.writeBytes a bs).wf = true)

/-! ## Invariants: from every state that meets one, not only from reset -/

/-- 00_scope.md R7, 70_reset_and_hazards.md R282: no step changes the parameters; CTRL's reserved bits stay 0 (10_state.md
R27), and CTRL changes only at a step that serves a register write, a platform write or reset; only reset makes a written byte
unwritten again. -/
def Obligations.StepKeepsParamsAndCtrl : Prop :=
  ∀ s t : State, step s = .next t → t.cfg = s.cfg ∧ (CtrlLegal s → CtrlLegal t) ∧
    (t.ctrl ≠ s.ctrl → ∃ op ∈ s.pending.head?, op = .reset ∨ (∃ off bits v, op = .regWrite off bits v) ∨
      (∃ a bits v, op = .platformWrite a bits v)) ∧
    (∀ a, s.buf.read a ≠ none → t.buf.read a = none → s.pending.head? = some .reset)

/-- 20_memory.md R60: every step keeps BUF in its canonical form, with every written byte below BUF_SIZE. -/
def Obligations.StepKeepsBufLegal : Prop := ∀ s t : State, BufLegal s → step s = .next t → BufLegal t

/-- 60_exceptions.md R236: every step keeps STATUS one of the words the rules can write: BUSY and the reserved bits 0, a cause
only with the RESULT of its own table. -/
def Obligations.StepKeepsStatusLegal : Prop :=
  (∀ s : State, StatusLegal s ↔ s.status ∈ statusWords) ∧
  ∀ s t : State, StatusLegal s → step s = .next t → StatusLegal t

/-- 10_state.md R41, R42, R44, R45: every step keeps R_FRAME's reserved bits 0, R_FRAME 0 where HV = 0, and R_PAYLEN 0 where
LV = 0; and it keeps R_CONSUMED 0 unless the last command ended OK or HANDSHAKE_FAILED, and R_NEED 0 unless it ended
NEED_MORE. -/
def Obligations.StepKeepsResultsLegal : Prop :=
  (∀ s : State, CountsLegal s ↔
    ((s.status.extractLsb' 0 4 ≠ 1 → s.status.extractLsb' 0 4 ≠ 4 → s.rConsumed = 0) ∧
      (s.status.extractLsb' 0 4 ≠ 2 → s.rNeedLo = 0 ∧ s.rNeedHi = 0))) ∧
  ∀ s t : State, step s = .next t → (FrameLegal s → FrameLegal t) ∧ (CountsLegal s → CountsLegal t)

/-- 70_reset_and_hazards.md R280: the state after reset meets every invariant, for every machine whose BUF_SIZE is in its
bounds. -/
def Obligations.ResetIsLegal : Prop :=
  Legal State.reset ∧ ∀ (c : Config) (d : Nat) (q : List HostOp), c.Valid → Legal (State.afterReset c d q)
end

