-- ==== Sys2Proof/Laws/Memory.lean ====
section
/-!
SUPPORT. The laws of BUF: a byte written is the byte read, every other address reads as before, and every operation keeps
the canonical form and the bound on addresses.
-/

namespace Sys2Proof.Machine

theorem Memory.read_write_same (m : Memory) (a : Nat) (b : Byte) : (m.write a b).read a = some b := by
  induction m with
  | nil => simp [Memory.write, Memory.read]
  | cons c m ih =>
    obtain ⟨a', b'⟩ := c
    simp only [Memory.write]
    split
    · simp [Memory.read]
    · split
      · simp [Memory.read]
      · rename_i h
        simp [Memory.read, Ne.symm h, ih]

theorem Memory.read_write_other (m : Memory) {a x : Nat} (b : Byte) (h : x ≠ a) : (m.write a b).read x = m.read x := by
  induction m with
  | nil => simp [Memory.write, Memory.read, Ne.symm h]
  | cons c m ih =>
    obtain ⟨a', b'⟩ := c
    simp only [Memory.write]
    split
    · simp [Memory.read, Ne.symm h]
    · split
      · rename_i e
        subst e
        simp [Memory.read, Ne.symm h]
      · simp only [Memory.read, ih]

/-- A run of bytes leaves every address outside it as it was. -/
theorem Memory.read_writeBytes_outside (bs : List Byte) (m : Memory) (a x : Nat) (h : x < a ∨ a + bs.length ≤ x) :
    (m.writeBytes a bs).read x = m.read x := by
  induction bs generalizing m a with
  | nil => rfl
  | cons b bs ih =>
    simp only [List.length_cons] at h
    rw [Memory.writeBytes, ih _ _ (by omega), Memory.read_write_other _ _ (by omega)]

/-- A run of bytes is what its addresses hold afterwards. -/
theorem Memory.read_writeBytes_inside (bs : List Byte) (m : Memory) (a i : Nat) (h : i < bs.length) :
    (m.writeBytes a bs).read (a + i) = some bs[i] := by
  induction bs generalizing m a i with
  | nil => simp at h
  | cons b bs ih =>
    cases i with
    | zero => simp [Memory.writeBytes, Memory.read_writeBytes_outside, Memory.read_write_same]
    | succ i =>
      simp only [List.length_cons, Nat.add_lt_add_iff_right] at h
      simpa [Memory.writeBytes, Nat.add_assoc, Nat.add_comm 1 i] using ih (m.write a b) (a + 1) i h

/-- The first address of a list in canonical form bounds every other one. -/
theorem Memory.wf_cons {a : Nat} {b : Byte} {m : Memory} :
    Memory.wf ((a, b) :: m) = true ↔ (∀ c ∈ m.head?, a < c.1) ∧ m.wf = true := by
  cases m with
  | nil => simp [Memory.wf]
  | cons c m => simp [Memory.wf]

theorem Memory.head_write (m : Memory) (a : Nat) (b : Byte) (c : Host.Cell) (h : c ∈ (m.write a b).head?) :
    c.1 = a ∨ ∃ d ∈ m.head?, c.1 = d.1 := by
  cases m with
  | nil =>
    simp only [Memory.write, List.head?_cons, Option.mem_def, Option.some.injEq] at h
    exact .inl (h ▸ rfl)
  | cons d m =>
    obtain ⟨a', b'⟩ := d
    simp only [Memory.write] at h
    split at h
    · simp only [List.head?_cons, Option.mem_def, Option.some.injEq] at h
      exact .inl (h ▸ rfl)
    · split at h
      · simp only [List.head?_cons, Option.mem_def, Option.some.injEq] at h
        rename_i e
        subst e
        exact .inl (h ▸ rfl)
      · simp only [List.head?_cons, Option.mem_def, Option.some.injEq] at h
        exact .inr ⟨(a', b'), by simp, h ▸ rfl⟩

theorem Memory.wf_write (m : Memory) (a : Nat) (b : Byte) (h : m.wf = true) : (m.write a b).wf = true := by
  induction m with
  | nil => simp [Memory.write, Memory.wf]
  | cons c m ih =>
    obtain ⟨a', b'⟩ := c
    simp only [Memory.write]
    split
    · rename_i hlt
      exact Memory.wf_cons.2 ⟨by simpa using hlt, h⟩
    · rename_i hge
      obtain ⟨hh, hm⟩ := Memory.wf_cons.1 h
      split
      · rename_i e
        subst e
        exact Memory.wf_cons.2 ⟨hh, hm⟩
      · refine Memory.wf_cons.2 ⟨fun c hc => ?_, ih hm⟩
        obtain e | ⟨d, hd, e⟩ := Memory.head_write m a b c hc
        · omega
        · have := hh d hd
          omega

theorem Memory.wf_writeBytes (bs : List Byte) (m : Memory) (a : Nat) (h : m.wf = true) :
    (m.writeBytes a bs).wf = true := by
  induction bs generalizing m a with
  | nil => exact h
  | cons b bs ih => exact ih _ _ (Memory.wf_write m a b h)

theorem Memory.below_write {n : Nat} (m : Memory) {a : Nat} (b : Byte) (ha : a < n) (h : m.below n = true) :
    (m.write a b).below n = true := by
  induction m with
  | nil => simp [Memory.write, Memory.below, ha]
  | cons c m ih =>
    obtain ⟨a', b'⟩ := c
    simp only [Memory.below, List.all_cons, Bool.and_eq_true, decide_eq_true_eq] at h ih
    simp only [Memory.write]
    split
    · simp [Memory.below, ha, h.1, h.2]
    · split
      · simp [Memory.below, ha, h.2]
      · simp [Memory.below, h.1, ih h.2]

theorem Memory.below_writeBytes {n : Nat} (bs : List Byte) (m : Memory) (a : Nat) (ha : a + bs.length ≤ n)
    (h : m.below n = true) : (m.writeBytes a bs).below n = true := by
  induction bs generalizing m a with
  | nil => exact h
  | cons b bs ih =>
    simp only [List.length_cons] at ha
    exact ih _ _ (by omega) (Memory.below_write m b (by omega) h)

/-- A byte is read exactly where it is written. -/
theorem State.readByte_ok {s : State} {a : Nat} {b : Byte} : s.readByte a = .ok b ↔ s.buf.read a = some b := by
  unfold State.readByte
  cases s.buf.read a <;> simp

/-- A run of bytes is read exactly where each of them is written. -/
theorem State.readBytes_ok {s : State} {a n : Nat} {bs : List Byte} :
    s.readBytes a n = .ok bs ↔ bs.length = n ∧ ∀ i (h : i < bs.length), s.buf.read (a + i) = some bs[i] := by
  induction n generalizing a bs with
  | zero =>
    constructor
    · rintro h
      cases h
      simp
    · rintro ⟨h, -⟩
      rw [List.length_eq_zero_iff.1 h]
      rfl
  | succ n ih =>
    simp only [State.readBytes]
    constructor
    · intro h
      split at h
      · cases h
      · rename_i b hb
        split at h
        · cases h
        · rename_i bs' hbs
          cases h
          obtain ⟨hl, hr⟩ := ih.1 hbs
          refine ⟨by simp [hl], fun i hi => ?_⟩
          cases i with
          | zero => simpa using State.readByte_ok.1 hb
          | succ i => simpa [Nat.add_assoc, Nat.add_comm 1 i] using hr i (by simpa using hi)
    · rintro ⟨hl, hr⟩
      obtain _ | ⟨b, bs'⟩ := bs
      · simp at hl
      · have h0 : s.buf.read a = some b := hr 0 (by simp)
        have h1 : s.readBytes (a + 1) n = .ok bs' := by
          refine ih.2 ⟨by simpa using hl, fun i hi => ?_⟩
          rw [show a + 1 + i = a + (i + 1) by omega]
          exact hr (i + 1) (by simpa using hi)
        simp [State.readByte_ok.2 h0, h1]

theorem State.readBytes_length {s : State} {a n : Nat} {bs : List Byte} (h : s.readBytes a n = .ok bs) :
    bs.length = n := (State.readBytes_ok.1 h).1

theorem xorFrom_length (k : Word) (j : Nat) (bs : List Byte) : (xorFrom k j bs).length = bs.length := by
  induction bs generalizing j with
  | nil => rfl
  | cons b bs ih => simp [xorFrom, ih]

@[simp] theorem xorMask_length (k : Word) (bs : List Byte) : (xorMask k bs).length = bs.length := xorFrom_length k 0 bs

@[simp] theorem maskedWith_length (key : Option Word) (bs : List Byte) : (maskedWith key bs).length = bs.length := by
  cases key <;> simp [maskedWith]

@[simp] theorem beBytes_length (v n : Nat) : (beBytes v n).length = n := by
  induction n with
  | zero => rfl
  | succ n ih => simp [beBytes, ih]

end Sys2Proof.Machine
end

