-- ==== Sys2Proof/Laws/State.lean ====
section
/-!
SUPPORT. One lemma per field per named update of the state, so that no later proof unfolds a record update.
-/

namespace Sys2Proof.Machine

variable (s : State)

/-! ## setStatus -/

@[simp] theorem State.setStatus_cfg (w : Word) : (s.setStatus w).cfg = s.cfg := rfl
@[simp] theorem State.setStatus_ctrl (w : Word) : (s.setStatus w).ctrl = s.ctrl := rfl
@[simp] theorem State.setStatus_status (w : Word) : (s.setStatus w).status = w := rfl
@[simp] theorem State.setStatus_srcAddr (w : Word) : (s.setStatus w).srcAddr = s.srcAddr := rfl
@[simp] theorem State.setStatus_srcLen (w : Word) : (s.setStatus w).srcLen = s.srcLen := rfl
@[simp] theorem State.setStatus_dstAddr (w : Word) : (s.setStatus w).dstAddr = s.dstAddr := rfl
@[simp] theorem State.setStatus_dstCap (w : Word) : (s.setStatus w).dstCap = s.dstCap := rfl
@[simp] theorem State.setStatus_auxAddr (w : Word) : (s.setStatus w).auxAddr = s.auxAddr := rfl
@[simp] theorem State.setStatus_auxLen (w : Word) : (s.setStatus w).auxLen = s.auxLen := rfl
@[simp] theorem State.setStatus_maskKey (w : Word) : (s.setStatus w).maskKey = s.maskKey := rfl
@[simp] theorem State.setStatus_rFrame (w : Word) : (s.setStatus w).rFrame = s.rFrame := rfl
@[simp] theorem State.setStatus_rPaylenLo (w : Word) : (s.setStatus w).rPaylenLo = s.rPaylenLo := rfl
@[simp] theorem State.setStatus_rPaylenHi (w : Word) : (s.setStatus w).rPaylenHi = s.rPaylenHi := rfl
@[simp] theorem State.setStatus_rConsumed (w : Word) : (s.setStatus w).rConsumed = s.rConsumed := rfl
@[simp] theorem State.setStatus_rNeedLo (w : Word) : (s.setStatus w).rNeedLo = s.rNeedLo := rfl
@[simp] theorem State.setStatus_rNeedHi (w : Word) : (s.setStatus w).rNeedHi = s.rNeedHi := rfl
@[simp] theorem State.setStatus_buf (w : Word) : (s.setStatus w).buf = s.buf := rfl
@[simp] theorem State.setStatus_draws (w : Word) : (s.setStatus w).draws = s.draws := rfl
@[simp] theorem State.setStatus_pending (w : Word) : (s.setStatus w).pending = s.pending := rfl
@[simp] theorem State.setStatus_reply (w : Word) : (s.setStatus w).reply = s.reply := rfl

/-! ## setFrame -/

@[simp] theorem State.setFrame_cfg (w : Word) : (s.setFrame w).cfg = s.cfg := rfl
@[simp] theorem State.setFrame_ctrl (w : Word) : (s.setFrame w).ctrl = s.ctrl := rfl
@[simp] theorem State.setFrame_status (w : Word) : (s.setFrame w).status = s.status := rfl
@[simp] theorem State.setFrame_srcAddr (w : Word) : (s.setFrame w).srcAddr = s.srcAddr := rfl
@[simp] theorem State.setFrame_srcLen (w : Word) : (s.setFrame w).srcLen = s.srcLen := rfl
@[simp] theorem State.setFrame_dstAddr (w : Word) : (s.setFrame w).dstAddr = s.dstAddr := rfl
@[simp] theorem State.setFrame_dstCap (w : Word) : (s.setFrame w).dstCap = s.dstCap := rfl
@[simp] theorem State.setFrame_auxAddr (w : Word) : (s.setFrame w).auxAddr = s.auxAddr := rfl
@[simp] theorem State.setFrame_auxLen (w : Word) : (s.setFrame w).auxLen = s.auxLen := rfl
@[simp] theorem State.setFrame_maskKey (w : Word) : (s.setFrame w).maskKey = s.maskKey := rfl
@[simp] theorem State.setFrame_rFrame (w : Word) : (s.setFrame w).rFrame = w := rfl
@[simp] theorem State.setFrame_rPaylenLo (w : Word) : (s.setFrame w).rPaylenLo = s.rPaylenLo := rfl
@[simp] theorem State.setFrame_rPaylenHi (w : Word) : (s.setFrame w).rPaylenHi = s.rPaylenHi := rfl
@[simp] theorem State.setFrame_rConsumed (w : Word) : (s.setFrame w).rConsumed = s.rConsumed := rfl
@[simp] theorem State.setFrame_rNeedLo (w : Word) : (s.setFrame w).rNeedLo = s.rNeedLo := rfl
@[simp] theorem State.setFrame_rNeedHi (w : Word) : (s.setFrame w).rNeedHi = s.rNeedHi := rfl
@[simp] theorem State.setFrame_buf (w : Word) : (s.setFrame w).buf = s.buf := rfl
@[simp] theorem State.setFrame_draws (w : Word) : (s.setFrame w).draws = s.draws := rfl
@[simp] theorem State.setFrame_pending (w : Word) : (s.setFrame w).pending = s.pending := rfl
@[simp] theorem State.setFrame_reply (w : Word) : (s.setFrame w).reply = s.reply := rfl

/-! ## setPaylen -/

@[simp] theorem State.setPaylen_cfg (l : Nat) : (s.setPaylen l).cfg = s.cfg := rfl
@[simp] theorem State.setPaylen_ctrl (l : Nat) : (s.setPaylen l).ctrl = s.ctrl := rfl
@[simp] theorem State.setPaylen_status (l : Nat) : (s.setPaylen l).status = s.status := rfl
@[simp] theorem State.setPaylen_srcAddr (l : Nat) : (s.setPaylen l).srcAddr = s.srcAddr := rfl
@[simp] theorem State.setPaylen_srcLen (l : Nat) : (s.setPaylen l).srcLen = s.srcLen := rfl
@[simp] theorem State.setPaylen_dstAddr (l : Nat) : (s.setPaylen l).dstAddr = s.dstAddr := rfl
@[simp] theorem State.setPaylen_dstCap (l : Nat) : (s.setPaylen l).dstCap = s.dstCap := rfl
@[simp] theorem State.setPaylen_auxAddr (l : Nat) : (s.setPaylen l).auxAddr = s.auxAddr := rfl
@[simp] theorem State.setPaylen_auxLen (l : Nat) : (s.setPaylen l).auxLen = s.auxLen := rfl
@[simp] theorem State.setPaylen_maskKey (l : Nat) : (s.setPaylen l).maskKey = s.maskKey := rfl
@[simp] theorem State.setPaylen_rFrame (l : Nat) : (s.setPaylen l).rFrame = s.rFrame := rfl
@[simp] theorem State.setPaylen_rPaylenLo (l : Nat) : (s.setPaylen l).rPaylenLo = lowWord l := rfl
@[simp] theorem State.setPaylen_rPaylenHi (l : Nat) : (s.setPaylen l).rPaylenHi = highWord l := rfl
@[simp] theorem State.setPaylen_rConsumed (l : Nat) : (s.setPaylen l).rConsumed = s.rConsumed := rfl
@[simp] theorem State.setPaylen_rNeedLo (l : Nat) : (s.setPaylen l).rNeedLo = s.rNeedLo := rfl
@[simp] theorem State.setPaylen_rNeedHi (l : Nat) : (s.setPaylen l).rNeedHi = s.rNeedHi := rfl
@[simp] theorem State.setPaylen_buf (l : Nat) : (s.setPaylen l).buf = s.buf := rfl
@[simp] theorem State.setPaylen_draws (l : Nat) : (s.setPaylen l).draws = s.draws := rfl
@[simp] theorem State.setPaylen_pending (l : Nat) : (s.setPaylen l).pending = s.pending := rfl
@[simp] theorem State.setPaylen_reply (l : Nat) : (s.setPaylen l).reply = s.reply := rfl

/-! ## setNeed -/

@[simp] theorem State.setNeed_cfg (n : Nat) : (s.setNeed n).cfg = s.cfg := rfl
@[simp] theorem State.setNeed_ctrl (n : Nat) : (s.setNeed n).ctrl = s.ctrl := rfl
@[simp] theorem State.setNeed_status (n : Nat) : (s.setNeed n).status = s.status := rfl
@[simp] theorem State.setNeed_srcAddr (n : Nat) : (s.setNeed n).srcAddr = s.srcAddr := rfl
@[simp] theorem State.setNeed_srcLen (n : Nat) : (s.setNeed n).srcLen = s.srcLen := rfl
@[simp] theorem State.setNeed_dstAddr (n : Nat) : (s.setNeed n).dstAddr = s.dstAddr := rfl
@[simp] theorem State.setNeed_dstCap (n : Nat) : (s.setNeed n).dstCap = s.dstCap := rfl
@[simp] theorem State.setNeed_auxAddr (n : Nat) : (s.setNeed n).auxAddr = s.auxAddr := rfl
@[simp] theorem State.setNeed_auxLen (n : Nat) : (s.setNeed n).auxLen = s.auxLen := rfl
@[simp] theorem State.setNeed_maskKey (n : Nat) : (s.setNeed n).maskKey = s.maskKey := rfl
@[simp] theorem State.setNeed_rFrame (n : Nat) : (s.setNeed n).rFrame = s.rFrame := rfl
@[simp] theorem State.setNeed_rPaylenLo (n : Nat) : (s.setNeed n).rPaylenLo = s.rPaylenLo := rfl
@[simp] theorem State.setNeed_rPaylenHi (n : Nat) : (s.setNeed n).rPaylenHi = s.rPaylenHi := rfl
@[simp] theorem State.setNeed_rConsumed (n : Nat) : (s.setNeed n).rConsumed = s.rConsumed := rfl
@[simp] theorem State.setNeed_rNeedLo (n : Nat) : (s.setNeed n).rNeedLo = lowWord n := rfl
@[simp] theorem State.setNeed_rNeedHi (n : Nat) : (s.setNeed n).rNeedHi = highWord n := rfl
@[simp] theorem State.setNeed_buf (n : Nat) : (s.setNeed n).buf = s.buf := rfl
@[simp] theorem State.setNeed_draws (n : Nat) : (s.setNeed n).draws = s.draws := rfl
@[simp] theorem State.setNeed_pending (n : Nat) : (s.setNeed n).pending = s.pending := rfl
@[simp] theorem State.setNeed_reply (n : Nat) : (s.setNeed n).reply = s.reply := rfl

/-! ## setConsumed -/

@[simp] theorem State.setConsumed_cfg (n : Nat) : (s.setConsumed n).cfg = s.cfg := rfl
@[simp] theorem State.setConsumed_ctrl (n : Nat) : (s.setConsumed n).ctrl = s.ctrl := rfl
@[simp] theorem State.setConsumed_status (n : Nat) : (s.setConsumed n).status = s.status := rfl
@[simp] theorem State.setConsumed_srcAddr (n : Nat) : (s.setConsumed n).srcAddr = s.srcAddr := rfl
@[simp] theorem State.setConsumed_srcLen (n : Nat) : (s.setConsumed n).srcLen = s.srcLen := rfl
@[simp] theorem State.setConsumed_dstAddr (n : Nat) : (s.setConsumed n).dstAddr = s.dstAddr := rfl
@[simp] theorem State.setConsumed_dstCap (n : Nat) : (s.setConsumed n).dstCap = s.dstCap := rfl
@[simp] theorem State.setConsumed_auxAddr (n : Nat) : (s.setConsumed n).auxAddr = s.auxAddr := rfl
@[simp] theorem State.setConsumed_auxLen (n : Nat) : (s.setConsumed n).auxLen = s.auxLen := rfl
@[simp] theorem State.setConsumed_maskKey (n : Nat) : (s.setConsumed n).maskKey = s.maskKey := rfl
@[simp] theorem State.setConsumed_rFrame (n : Nat) : (s.setConsumed n).rFrame = s.rFrame := rfl
@[simp] theorem State.setConsumed_rPaylenLo (n : Nat) : (s.setConsumed n).rPaylenLo = s.rPaylenLo := rfl
@[simp] theorem State.setConsumed_rPaylenHi (n : Nat) : (s.setConsumed n).rPaylenHi = s.rPaylenHi := rfl
@[simp] theorem State.setConsumed_rConsumed (n : Nat) : (s.setConsumed n).rConsumed = lowWord n := rfl
@[simp] theorem State.setConsumed_rNeedLo (n : Nat) : (s.setConsumed n).rNeedLo = s.rNeedLo := rfl
@[simp] theorem State.setConsumed_rNeedHi (n : Nat) : (s.setConsumed n).rNeedHi = s.rNeedHi := rfl
@[simp] theorem State.setConsumed_buf (n : Nat) : (s.setConsumed n).buf = s.buf := rfl
@[simp] theorem State.setConsumed_draws (n : Nat) : (s.setConsumed n).draws = s.draws := rfl
@[simp] theorem State.setConsumed_pending (n : Nat) : (s.setConsumed n).pending = s.pending := rfl
@[simp] theorem State.setConsumed_reply (n : Nat) : (s.setConsumed n).reply = s.reply := rfl

/-! ## setMaskKey -/

@[simp] theorem State.setMaskKey_cfg (k : Word) : (s.setMaskKey k).cfg = s.cfg := rfl
@[simp] theorem State.setMaskKey_ctrl (k : Word) : (s.setMaskKey k).ctrl = s.ctrl := rfl
@[simp] theorem State.setMaskKey_status (k : Word) : (s.setMaskKey k).status = s.status := rfl
@[simp] theorem State.setMaskKey_srcAddr (k : Word) : (s.setMaskKey k).srcAddr = s.srcAddr := rfl
@[simp] theorem State.setMaskKey_srcLen (k : Word) : (s.setMaskKey k).srcLen = s.srcLen := rfl
@[simp] theorem State.setMaskKey_dstAddr (k : Word) : (s.setMaskKey k).dstAddr = s.dstAddr := rfl
@[simp] theorem State.setMaskKey_dstCap (k : Word) : (s.setMaskKey k).dstCap = s.dstCap := rfl
@[simp] theorem State.setMaskKey_auxAddr (k : Word) : (s.setMaskKey k).auxAddr = s.auxAddr := rfl
@[simp] theorem State.setMaskKey_auxLen (k : Word) : (s.setMaskKey k).auxLen = s.auxLen := rfl
@[simp] theorem State.setMaskKey_maskKey (k : Word) : (s.setMaskKey k).maskKey = k := rfl
@[simp] theorem State.setMaskKey_rFrame (k : Word) : (s.setMaskKey k).rFrame = s.rFrame := rfl
@[simp] theorem State.setMaskKey_rPaylenLo (k : Word) : (s.setMaskKey k).rPaylenLo = s.rPaylenLo := rfl
@[simp] theorem State.setMaskKey_rPaylenHi (k : Word) : (s.setMaskKey k).rPaylenHi = s.rPaylenHi := rfl
@[simp] theorem State.setMaskKey_rConsumed (k : Word) : (s.setMaskKey k).rConsumed = s.rConsumed := rfl
@[simp] theorem State.setMaskKey_rNeedLo (k : Word) : (s.setMaskKey k).rNeedLo = s.rNeedLo := rfl
@[simp] theorem State.setMaskKey_rNeedHi (k : Word) : (s.setMaskKey k).rNeedHi = s.rNeedHi := rfl
@[simp] theorem State.setMaskKey_buf (k : Word) : (s.setMaskKey k).buf = s.buf := rfl
@[simp] theorem State.setMaskKey_draws (k : Word) : (s.setMaskKey k).draws = s.draws := rfl
@[simp] theorem State.setMaskKey_pending (k : Word) : (s.setMaskKey k).pending = s.pending := rfl
@[simp] theorem State.setMaskKey_reply (k : Word) : (s.setMaskKey k).reply = s.reply := rfl

/-! ## setDraws -/

@[simp] theorem State.setDraws_cfg (n : Nat) : (s.setDraws n).cfg = s.cfg := rfl
@[simp] theorem State.setDraws_ctrl (n : Nat) : (s.setDraws n).ctrl = s.ctrl := rfl
@[simp] theorem State.setDraws_status (n : Nat) : (s.setDraws n).status = s.status := rfl
@[simp] theorem State.setDraws_srcAddr (n : Nat) : (s.setDraws n).srcAddr = s.srcAddr := rfl
@[simp] theorem State.setDraws_srcLen (n : Nat) : (s.setDraws n).srcLen = s.srcLen := rfl
@[simp] theorem State.setDraws_dstAddr (n : Nat) : (s.setDraws n).dstAddr = s.dstAddr := rfl
@[simp] theorem State.setDraws_dstCap (n : Nat) : (s.setDraws n).dstCap = s.dstCap := rfl
@[simp] theorem State.setDraws_auxAddr (n : Nat) : (s.setDraws n).auxAddr = s.auxAddr := rfl
@[simp] theorem State.setDraws_auxLen (n : Nat) : (s.setDraws n).auxLen = s.auxLen := rfl
@[simp] theorem State.setDraws_maskKey (n : Nat) : (s.setDraws n).maskKey = s.maskKey := rfl
@[simp] theorem State.setDraws_rFrame (n : Nat) : (s.setDraws n).rFrame = s.rFrame := rfl
@[simp] theorem State.setDraws_rPaylenLo (n : Nat) : (s.setDraws n).rPaylenLo = s.rPaylenLo := rfl
@[simp] theorem State.setDraws_rPaylenHi (n : Nat) : (s.setDraws n).rPaylenHi = s.rPaylenHi := rfl
@[simp] theorem State.setDraws_rConsumed (n : Nat) : (s.setDraws n).rConsumed = s.rConsumed := rfl
@[simp] theorem State.setDraws_rNeedLo (n : Nat) : (s.setDraws n).rNeedLo = s.rNeedLo := rfl
@[simp] theorem State.setDraws_rNeedHi (n : Nat) : (s.setDraws n).rNeedHi = s.rNeedHi := rfl
@[simp] theorem State.setDraws_buf (n : Nat) : (s.setDraws n).buf = s.buf := rfl
@[simp] theorem State.setDraws_draws (n : Nat) : (s.setDraws n).draws = n := rfl
@[simp] theorem State.setDraws_pending (n : Nat) : (s.setDraws n).pending = s.pending := rfl
@[simp] theorem State.setDraws_reply (n : Nat) : (s.setDraws n).reply = s.reply := rfl

/-! ## writeBuf -/

@[simp] theorem State.writeBuf_cfg (a : Nat) (bs : List Byte) : (s.writeBuf a bs).cfg = s.cfg := rfl
@[simp] theorem State.writeBuf_ctrl (a : Nat) (bs : List Byte) : (s.writeBuf a bs).ctrl = s.ctrl := rfl
@[simp] theorem State.writeBuf_status (a : Nat) (bs : List Byte) : (s.writeBuf a bs).status = s.status := rfl
@[simp] theorem State.writeBuf_srcAddr (a : Nat) (bs : List Byte) : (s.writeBuf a bs).srcAddr = s.srcAddr := rfl
@[simp] theorem State.writeBuf_srcLen (a : Nat) (bs : List Byte) : (s.writeBuf a bs).srcLen = s.srcLen := rfl
@[simp] theorem State.writeBuf_dstAddr (a : Nat) (bs : List Byte) : (s.writeBuf a bs).dstAddr = s.dstAddr := rfl
@[simp] theorem State.writeBuf_dstCap (a : Nat) (bs : List Byte) : (s.writeBuf a bs).dstCap = s.dstCap := rfl
@[simp] theorem State.writeBuf_auxAddr (a : Nat) (bs : List Byte) : (s.writeBuf a bs).auxAddr = s.auxAddr := rfl
@[simp] theorem State.writeBuf_auxLen (a : Nat) (bs : List Byte) : (s.writeBuf a bs).auxLen = s.auxLen := rfl
@[simp] theorem State.writeBuf_maskKey (a : Nat) (bs : List Byte) : (s.writeBuf a bs).maskKey = s.maskKey := rfl
@[simp] theorem State.writeBuf_rFrame (a : Nat) (bs : List Byte) : (s.writeBuf a bs).rFrame = s.rFrame := rfl
@[simp] theorem State.writeBuf_rPaylenLo (a : Nat) (bs : List Byte) : (s.writeBuf a bs).rPaylenLo = s.rPaylenLo := rfl
@[simp] theorem State.writeBuf_rPaylenHi (a : Nat) (bs : List Byte) : (s.writeBuf a bs).rPaylenHi = s.rPaylenHi := rfl
@[simp] theorem State.writeBuf_rConsumed (a : Nat) (bs : List Byte) : (s.writeBuf a bs).rConsumed = s.rConsumed := rfl
@[simp] theorem State.writeBuf_rNeedLo (a : Nat) (bs : List Byte) : (s.writeBuf a bs).rNeedLo = s.rNeedLo := rfl
@[simp] theorem State.writeBuf_rNeedHi (a : Nat) (bs : List Byte) : (s.writeBuf a bs).rNeedHi = s.rNeedHi := rfl
@[simp] theorem State.writeBuf_buf (a : Nat) (bs : List Byte) : (s.writeBuf a bs).buf = s.buf.writeBytes a bs := rfl
@[simp] theorem State.writeBuf_draws (a : Nat) (bs : List Byte) : (s.writeBuf a bs).draws = s.draws := rfl
@[simp] theorem State.writeBuf_pending (a : Nat) (bs : List Byte) : (s.writeBuf a bs).pending = s.pending := rfl
@[simp] theorem State.writeBuf_reply (a : Nat) (bs : List Byte) : (s.writeBuf a bs).reply = s.reply := rfl

/-! ## clearResults -/

@[simp] theorem State.clearResults_cfg : s.clearResults.cfg = s.cfg := rfl
@[simp] theorem State.clearResults_ctrl : s.clearResults.ctrl = s.ctrl := rfl
@[simp] theorem State.clearResults_status : s.clearResults.status = s.status := rfl
@[simp] theorem State.clearResults_srcAddr : s.clearResults.srcAddr = s.srcAddr := rfl
@[simp] theorem State.clearResults_srcLen : s.clearResults.srcLen = s.srcLen := rfl
@[simp] theorem State.clearResults_dstAddr : s.clearResults.dstAddr = s.dstAddr := rfl
@[simp] theorem State.clearResults_dstCap : s.clearResults.dstCap = s.dstCap := rfl
@[simp] theorem State.clearResults_auxAddr : s.clearResults.auxAddr = s.auxAddr := rfl
@[simp] theorem State.clearResults_auxLen : s.clearResults.auxLen = s.auxLen := rfl
@[simp] theorem State.clearResults_maskKey : s.clearResults.maskKey = s.maskKey := rfl
@[simp] theorem State.clearResults_rFrame : s.clearResults.rFrame = 0 := rfl
@[simp] theorem State.clearResults_rPaylenLo : s.clearResults.rPaylenLo = 0 := rfl
@[simp] theorem State.clearResults_rPaylenHi : s.clearResults.rPaylenHi = 0 := rfl
@[simp] theorem State.clearResults_rConsumed : s.clearResults.rConsumed = 0 := rfl
@[simp] theorem State.clearResults_rNeedLo : s.clearResults.rNeedLo = 0 := rfl
@[simp] theorem State.clearResults_rNeedHi : s.clearResults.rNeedHi = 0 := rfl
@[simp] theorem State.clearResults_buf : s.clearResults.buf = s.buf := rfl
@[simp] theorem State.clearResults_draws : s.clearResults.draws = s.draws := rfl
@[simp] theorem State.clearResults_pending : s.clearResults.pending = s.pending := rfl
@[simp] theorem State.clearResults_reply : s.clearResults.reply = s.reply := rfl

/-! ## taken -/

@[simp] theorem State.taken_cfg (rest : List HostOp) : (s.taken rest).cfg = s.cfg := rfl
@[simp] theorem State.taken_ctrl (rest : List HostOp) : (s.taken rest).ctrl = s.ctrl := rfl
@[simp] theorem State.taken_status (rest : List HostOp) : (s.taken rest).status = s.status := rfl
@[simp] theorem State.taken_srcAddr (rest : List HostOp) : (s.taken rest).srcAddr = s.srcAddr := rfl
@[simp] theorem State.taken_srcLen (rest : List HostOp) : (s.taken rest).srcLen = s.srcLen := rfl
@[simp] theorem State.taken_dstAddr (rest : List HostOp) : (s.taken rest).dstAddr = s.dstAddr := rfl
@[simp] theorem State.taken_dstCap (rest : List HostOp) : (s.taken rest).dstCap = s.dstCap := rfl
@[simp] theorem State.taken_auxAddr (rest : List HostOp) : (s.taken rest).auxAddr = s.auxAddr := rfl
@[simp] theorem State.taken_auxLen (rest : List HostOp) : (s.taken rest).auxLen = s.auxLen := rfl
@[simp] theorem State.taken_maskKey (rest : List HostOp) : (s.taken rest).maskKey = s.maskKey := rfl
@[simp] theorem State.taken_rFrame (rest : List HostOp) : (s.taken rest).rFrame = s.rFrame := rfl
@[simp] theorem State.taken_rPaylenLo (rest : List HostOp) : (s.taken rest).rPaylenLo = s.rPaylenLo := rfl
@[simp] theorem State.taken_rPaylenHi (rest : List HostOp) : (s.taken rest).rPaylenHi = s.rPaylenHi := rfl
@[simp] theorem State.taken_rConsumed (rest : List HostOp) : (s.taken rest).rConsumed = s.rConsumed := rfl
@[simp] theorem State.taken_rNeedLo (rest : List HostOp) : (s.taken rest).rNeedLo = s.rNeedLo := rfl
@[simp] theorem State.taken_rNeedHi (rest : List HostOp) : (s.taken rest).rNeedHi = s.rNeedHi := rfl
@[simp] theorem State.taken_buf (rest : List HostOp) : (s.taken rest).buf = s.buf := rfl
@[simp] theorem State.taken_draws (rest : List HostOp) : (s.taken rest).draws = s.draws := rfl
@[simp] theorem State.taken_pending (rest : List HostOp) : (s.taken rest).pending = rest := rfl
@[simp] theorem State.taken_reply (rest : List HostOp) : (s.taken rest).reply = .nothing := rfl

/-! ## keepKey -/

@[simp] theorem State.keepKey_cfg (key : Option Word) : (s.keepKey key).cfg = s.cfg := by cases key <;> rfl
@[simp] theorem State.keepKey_ctrl (key : Option Word) : (s.keepKey key).ctrl = s.ctrl := by cases key <;> rfl
@[simp] theorem State.keepKey_status (key : Option Word) : (s.keepKey key).status = s.status := by cases key <;> rfl
@[simp] theorem State.keepKey_srcAddr (key : Option Word) : (s.keepKey key).srcAddr = s.srcAddr := by cases key <;> rfl
@[simp] theorem State.keepKey_srcLen (key : Option Word) : (s.keepKey key).srcLen = s.srcLen := by cases key <;> rfl
@[simp] theorem State.keepKey_dstAddr (key : Option Word) : (s.keepKey key).dstAddr = s.dstAddr := by cases key <;> rfl
@[simp] theorem State.keepKey_dstCap (key : Option Word) : (s.keepKey key).dstCap = s.dstCap := by cases key <;> rfl
@[simp] theorem State.keepKey_auxAddr (key : Option Word) : (s.keepKey key).auxAddr = s.auxAddr := by cases key <;> rfl
@[simp] theorem State.keepKey_auxLen (key : Option Word) : (s.keepKey key).auxLen = s.auxLen := by cases key <;> rfl
@[simp] theorem State.keepKey_maskKey (key : Option Word) : (s.keepKey key).maskKey = key.getD s.maskKey := by cases key <;> rfl
@[simp] theorem State.keepKey_rFrame (key : Option Word) : (s.keepKey key).rFrame = s.rFrame := by cases key <;> rfl
@[simp] theorem State.keepKey_rPaylenLo (key : Option Word) : (s.keepKey key).rPaylenLo = s.rPaylenLo := by cases key <;> rfl
@[simp] theorem State.keepKey_rPaylenHi (key : Option Word) : (s.keepKey key).rPaylenHi = s.rPaylenHi := by cases key <;> rfl
@[simp] theorem State.keepKey_rConsumed (key : Option Word) : (s.keepKey key).rConsumed = s.rConsumed := by cases key <;> rfl
@[simp] theorem State.keepKey_rNeedLo (key : Option Word) : (s.keepKey key).rNeedLo = s.rNeedLo := by cases key <;> rfl
@[simp] theorem State.keepKey_rNeedHi (key : Option Word) : (s.keepKey key).rNeedHi = s.rNeedHi := by cases key <;> rfl
@[simp] theorem State.keepKey_buf (key : Option Word) : (s.keepKey key).buf = s.buf := by cases key <;> rfl
@[simp] theorem State.keepKey_draws (key : Option Word) : (s.keepKey key).draws = s.draws := by cases key <;> rfl
@[simp] theorem State.keepKey_pending (key : Option Word) : (s.keepKey key).pending = s.pending := by cases key <;> rfl
@[simp] theorem State.keepKey_reply (key : Option Word) : (s.keepKey key).reply = s.reply := by cases key <;> rfl

/-! ## Operands depend on the operand registers alone -/

@[simp] theorem srcRegion_setStatus (w : Word) : srcRegion (s.setStatus w) = srcRegion s := rfl
@[simp] theorem dstRegion_setStatus (w : Word) : dstRegion (s.setStatus w) = dstRegion s := rfl
@[simp] theorem auxRegion_setStatus (w : Word) : auxRegion (s.setStatus w) = auxRegion s := rfl
@[simp] theorem srcRegion_setFrame (w : Word) : srcRegion (s.setFrame w) = srcRegion s := rfl
@[simp] theorem dstRegion_setFrame (w : Word) : dstRegion (s.setFrame w) = dstRegion s := rfl
@[simp] theorem auxRegion_setFrame (w : Word) : auxRegion (s.setFrame w) = auxRegion s := rfl
@[simp] theorem srcRegion_setPaylen (l : Nat) : srcRegion (s.setPaylen l) = srcRegion s := rfl
@[simp] theorem dstRegion_setPaylen (l : Nat) : dstRegion (s.setPaylen l) = dstRegion s := rfl
@[simp] theorem auxRegion_setPaylen (l : Nat) : auxRegion (s.setPaylen l) = auxRegion s := rfl
@[simp] theorem srcRegion_setNeed (n : Nat) : srcRegion (s.setNeed n) = srcRegion s := rfl
@[simp] theorem dstRegion_setNeed (n : Nat) : dstRegion (s.setNeed n) = dstRegion s := rfl
@[simp] theorem auxRegion_setNeed (n : Nat) : auxRegion (s.setNeed n) = auxRegion s := rfl
@[simp] theorem srcRegion_setConsumed (n : Nat) : srcRegion (s.setConsumed n) = srcRegion s := rfl
@[simp] theorem dstRegion_setConsumed (n : Nat) : dstRegion (s.setConsumed n) = dstRegion s := rfl
@[simp] theorem auxRegion_setConsumed (n : Nat) : auxRegion (s.setConsumed n) = auxRegion s := rfl
@[simp] theorem srcRegion_setMaskKey (k : Word) : srcRegion (s.setMaskKey k) = srcRegion s := rfl
@[simp] theorem dstRegion_setMaskKey (k : Word) : dstRegion (s.setMaskKey k) = dstRegion s := rfl
@[simp] theorem auxRegion_setMaskKey (k : Word) : auxRegion (s.setMaskKey k) = auxRegion s := rfl
@[simp] theorem srcRegion_setDraws (n : Nat) : srcRegion (s.setDraws n) = srcRegion s := rfl
@[simp] theorem dstRegion_setDraws (n : Nat) : dstRegion (s.setDraws n) = dstRegion s := rfl
@[simp] theorem auxRegion_setDraws (n : Nat) : auxRegion (s.setDraws n) = auxRegion s := rfl
@[simp] theorem srcRegion_writeBuf (a : Nat) (bs : List Byte) : srcRegion (s.writeBuf a bs) = srcRegion s := rfl
@[simp] theorem dstRegion_writeBuf (a : Nat) (bs : List Byte) : dstRegion (s.writeBuf a bs) = dstRegion s := rfl
@[simp] theorem auxRegion_writeBuf (a : Nat) (bs : List Byte) : auxRegion (s.writeBuf a bs) = auxRegion s := rfl
@[simp] theorem srcRegion_clearResults : srcRegion s.clearResults = srcRegion s := rfl
@[simp] theorem dstRegion_clearResults : dstRegion s.clearResults = dstRegion s := rfl
@[simp] theorem auxRegion_clearResults : auxRegion s.clearResults = auxRegion s := rfl
@[simp] theorem srcRegion_taken (rest : List HostOp) : srcRegion (s.taken rest) = srcRegion s := rfl
@[simp] theorem dstRegion_taken (rest : List HostOp) : dstRegion (s.taken rest) = dstRegion s := rfl
@[simp] theorem auxRegion_taken (rest : List HostOp) : auxRegion (s.taken rest) = auxRegion s := rfl

/-! ## Reads depend on the buffer alone -/

theorem State.readByte_congr {s t : State} (h : s.buf = t.buf) (a : Nat) : s.readByte a = t.readByte a := by
  simp [State.readByte, h]

theorem State.readBytes_congr {s t : State} (h : s.buf = t.buf) (a n : Nat) : s.readBytes a n = t.readBytes a n := by
  induction n generalizing a with
  | zero => rfl
  | succ n ih => simp only [State.readBytes, State.readByte_congr h, ih]

theorem State.writtenPrefix_congr {s t : State} (h : s.buf = t.buf) (a n : Nat) :
    s.writtenPrefix a n = t.writtenPrefix a n := by
  induction n generalizing a with
  | zero => rfl
  | succ n ih => simp only [State.writtenPrefix, h, ih]

end Sys2Proof.Machine
end

