-- ==== Sys2Proof/Laws/Ops.lean ====
section
/-!
SUPPORT. One lemma per shared operation that says everything it can do: when it answers a next state, and which.
-/

namespace Sys2Proof.Machine

@[simp] theorem finishOk_next {s t : State} : finishOk s = .next t ↔ t = s.setStatus statusOk := by
  simp [finishOk, eq_comm]

@[simp] theorem raise_next {c : Cause} {s t : State} : raise c s = .next t ↔ t = s.setStatus (statusOf c) := by
  simp [raise, eq_comm]

@[simp] theorem need_next {c : Cause} {n : Nat} {s t : State} :
    need c n s = .next t ↔ t = (s.setNeed n).setStatus (statusOf c) := by
  simp [need]

theorem reading_next {α : Type} {r : Except Fault α} {k : α → Out} {t : State} :
    reading r k = .next t ↔ ∃ x, r = .ok x ∧ k x = .next t := by
  cases r <;> simp [reading]

@[simp] theorem reading_ok {α : Type} (x : α) (k : α → Out) : reading (.ok x) k = k x := rfl

@[simp] theorem reading_error {α : Type} (f : Fault) (k : α → Out) : reading (.error f : Except Fault α) k = .fault f := rfl

theorem inRange_true {n : Nat} {r : Region} : inRange n r = true ↔ r.addr + r.len ≤ n := by simp [inRange]

theorem inRange_false {n : Nat} {r : Region} : inRange n r = false ↔ n < r.addr + r.len := by simp [inRange]

/-- The prologue answers a next state in one of three ways (40_dispatch.md R125): a region is out of range, the regions
overlap where they must not, or every check passes and the body answers it. -/
theorem withRegions_next {p q : Region} {o : Bool} {body : State → Out} {s t : State} :
    withRegions p q o body s = .next t ↔
      ((inRange s.cfg.bufSize p = false ∨ inRange s.cfg.bufSize q = false) ∧ t = s.setStatus (statusOf .regionOutOfRange))
      ∨ (inRange s.cfg.bufSize p = true ∧ inRange s.cfg.bufSize q = true ∧ o = true ∧
          t = s.setStatus (statusOf .regionOverlap))
      ∨ (inRange s.cfg.bufSize p = true ∧ inRange s.cfg.bufSize q = true ∧ o = false ∧ body s = .next t) := by
  unfold withRegions
  cases inRange s.cfg.bufSize p <;> cases inRange s.cfg.bufSize q <;> cases o <;> simp

/-- Where every check passes, the prologue is the body. -/
theorem withRegions_pass {p q : Region} {o : Bool} {body : State → Out} {s : State}
    (hp : inRange s.cfg.bufSize p = true) (hq : inRange s.cfg.bufSize q = true) (ho : o = false) :
    withRegions p q o body s = body s := by
  simp [withRegions, hp, hq, ho]

/-- Where a region is out of range, that is the outcome. -/
theorem withRegions_range {p q : Region} {o : Bool} {body : State → Out} {s : State}
    (h : inRange s.cfg.bufSize p = false ∨ inRange s.cfg.bufSize q = false) :
    withRegions p q o body s = raise .regionOutOfRange s := by
  unfold withRegions
  cases hp : inRange s.cfg.bufSize p <;> cases hq : inRange s.cfg.bufSize q <;> simp_all

/-- Where both regions are in range and the overlap is refused, that is the outcome. -/
theorem withRegions_overlap {p q : Region} {o : Bool} {body : State → Out} {s : State}
    (hp : inRange s.cfg.bufSize p = true) (hq : inRange s.cfg.bufSize q = true) (ho : o = true) :
    withRegions p q o body s = raise .regionOverlap s := by
  simp [withRegions, hp, hq, ho]

/-- What ENCODE takes as its key changes no field of the state but the count of draws. -/
theorem encodeKey_state (msk : Bool) (s : State) :
    (encodeKey msk s).2 = s.setDraws (s.draws + if msk = true ∧ ctrlKeySrc s.ctrl = false then 1 else 0) := by
  unfold encodeKey
  cases msk <;> cases h : ctrlKeySrc s.ctrl <;> simp [State.draw] <;> rfl

theorem encodeKey_isSome (msk : Bool) (s : State) : (encodeKey msk s).1.isSome = msk := by
  unfold encodeKey
  cases msk <;> cases h : ctrlKeySrc s.ctrl <;> simp

end Sys2Proof.Machine
end

