-- ==== Sys2Proof/Laws/Commands.lean ====
section
/-!
SUPPORT. For each command one lemma that lists every way it can end in a next state, with the state it leaves: what the
invariants and the frames are derived from, instead of unfolding a meaning again.
-/

namespace Sys2Proof.Machine

@[simp] theorem lowWord_zero : lowWord 0 = 0 := rfl

@[simp] theorem highWord_zero : highWord 0 = 0 := rfl

/-- The state a command leaves when it ends with a cause: STATUS and the six result registers, all else as it was. -/
def failed (s : State) (c : Cause) (frame : Word) (paylen consumed needed : Nat) : State :=
  { s with
    status := statusOf c, rFrame := frame, rPaylenLo := lowWord paylen, rPaylenHi := highWord paylen
    rConsumed := lowWord consumed, rNeedLo := lowWord needed, rNeedHi := highWord needed }

/-- The state a command leaves when it ends OK. -/
def succeeded (s : State) (frame : Word) (paylen consumed : Nat) (stored : List Byte) (key : Option Word) (draws : Nat) :
    State :=
  { s with
    status := statusOk, rFrame := frame, rPaylenLo := lowWord paylen, rPaylenHi := highWord paylen
    rConsumed := lowWord consumed, rNeedLo := 0, rNeedHi := 0
    buf := s.buf.writeBytes s.dstAddr.toNat stored, maskKey := key.getD s.maskKey, draws := draws }

/-- What DECODE's steps work on once the length is recorded. -/
def measured (s : State) (h : FrameHeader) (l : Nat) : State :=
  ((s.clearResults.setFrame (headerWord h false)).setPaylen l).setFrame (headerWord h true)

theorem failed_early (s : State) (c : Cause) (n : Nat) :
    (s.clearResults.setNeed n).setStatus (statusOf c) = failed s c 0 0 0 n := by
  simp [failed, State.clearResults, State.setNeed, State.setStatus]

theorem failed_cleared (s : State) (c : Cause) : s.clearResults.setStatus (statusOf c) = failed s c 0 0 0 0 := by
  simp [failed, State.clearResults, State.setStatus]

theorem failed_consumed (s : State) (c : Cause) (n : Nat) :
    (s.clearResults.setConsumed n).setStatus (statusOf c) = failed s c 0 0 n 0 := by
  simp [failed, State.clearResults, State.setConsumed, State.setStatus]

theorem failed_header (s : State) (f : Word) (c : Cause) :
    (s.clearResults.setFrame f).setStatus (statusOf c) = failed s c f 0 0 0 := by
  simp [failed, State.clearResults, State.setFrame, State.setStatus]

theorem failed_header_need (s : State) (f : Word) (c : Cause) (n : Nat) :
    ((s.clearResults.setFrame f).setNeed n).setStatus (statusOf c) = failed s c f 0 0 n := by
  simp [failed, State.clearResults, State.setFrame, State.setNeed, State.setStatus]

theorem failed_measured (s : State) (h : FrameHeader) (l : Nat) (c : Cause) :
    (measured s h l).setStatus (statusOf c) = failed s c (headerWord h true) l 0 0 := by
  simp [failed, measured, State.clearResults, State.setFrame, State.setPaylen, State.setStatus]

theorem failed_measured_need (s : State) (h : FrameHeader) (l : Nat) (c : Cause) (n : Nat) :
    ((measured s h l).setNeed n).setStatus (statusOf c) = failed s c (headerWord h true) l 0 n := by
  simp [failed, measured, State.clearResults, State.setFrame, State.setPaylen, State.setNeed, State.setStatus]

theorem succeeded_measured (s : State) (h : FrameHeader) (l n : Nat) (key : Option Word) (bs : List Byte) :
    ((((measured s h l).writeBuf s.dstAddr.toNat bs).keepKey key).setConsumed n).setStatus statusOk
      = succeeded s (headerWord h true) l n bs key s.draws := by
  cases key <;>
    simp [succeeded, measured, State.clearResults, State.setFrame, State.setPaylen, State.setConsumed, State.setStatus,
      State.writeBuf, State.keepKey, State.setMaskKey]

theorem succeeded_encode (s : State) (f : Word) (l n d : Nat) (key : Option Word) (bs : List Byte) :
    ((((((s.clearResults.setDraws d).writeBuf s.dstAddr.toNat bs).keepKey key).setFrame f).setPaylen l).setConsumed
      n).setStatus statusOk = succeeded s f l n bs key d := by
  cases key <;>
    simp [succeeded, State.clearResults, State.setFrame, State.setPaylen, State.setConsumed, State.setStatus,
      State.writeBuf, State.keepKey, State.setMaskKey, State.setDraws]

theorem succeeded_mask (s : State) (n : Nat) (bs : List Byte) :
    ((s.clearResults.writeBuf s.dstAddr.toNat bs).setConsumed n).setStatus statusOk
      = succeeded s 0 0 n bs none s.draws := by
  simp [succeeded, State.clearResults, State.setConsumed, State.setStatus, State.writeBuf]

theorem succeeded_validate (s : State) (n : Nat) :
    (s.clearResults.setConsumed n).setStatus statusOk = succeeded s 0 0 n [] none s.draws := by
  simp [succeeded, State.clearResults, State.setConsumed, State.setStatus, Memory.writeBytes]

/-- The five ways DECODE ends (41_decode.md R141, R152): before a header is known; with the header but no length; with the
length; OK. -/
inductive DecodeEnds (s : State) : State → Prop where
  | early (c : Cause) (n : Nat) (hn : causeResult c = .needMore ∧ n = 2 ∨ causeResult c = .cmdError ∧ n = 0) :
      DecodeEnds s (failed s c 0 0 0 n)
  | header (h : FrameHeader) (c : Cause) (n : Nat)
      (hn : causeResult c = .needMore ∧ n = 2 + extLen h.len7 ∨ causeResult c = .protocolError ∧ n = 0) :
      DecodeEnds s (failed s c (headerWord h false) 0 0 n)
  | length (h : FrameHeader) (l : Nat) (c : Cause) (n : Nat)
      (hn : causeResult c = .needMore ∨ (causeResult c = .protocolError ∨ causeResult c = .cmdError) ∧ n = 0) :
      DecodeEnds s (failed s c (headerWord h true) l 0 n)
  | ok (h : FrameHeader) (key : Option Word) (p : List Byte)
      (hin : s.dstAddr.toNat + s.dstCap.toNat ≤ s.cfg.bufSize) (hfit : p.length ≤ s.dstCap.toNat)
      (hlen : frameHdrLen h + p.length ≤ s.srcLen.toNat) (hkey : key.isSome = h.masked)
      (hread : s.readBytes (s.srcAddr.toNat + frameHdrLen h) p.length = .ok p) :
      DecodeEnds s
        (succeeded s (headerWord h true) p.length (frameHdrLen h + p.length) (maskedWith key p) key s.draws)

theorem headerCheck_protocolError {client : Bool} {h : FrameHeader} {c : Cause} (e : headerCheck client h = some c) :
    causeResult c = .protocolError := by
  unfold headerCheck at e
  split_ifs at e <;> cases e <;> rfl

theorem lengthCheck_protocolError {strict : Bool} {len7 : BitVec 7} {l : Nat} {c : Cause}
    (e : lengthCheck strict len7 l = some c) : causeResult c = .protocolError := by
  unfold lengthCheck at e
  split_ifs at e <;> cases e <;> rfl

theorem decodePayload_ends {h : FrameHeader} {l : Nat} {key : Option Word} {s t : State} (hk : key.isSome = h.masked)
    (hin : s.dstAddr.toNat + s.dstCap.toNat ≤ s.cfg.bufSize) (e : decodePayload h l key (measured s h l) = .next t) :
    DecodeEnds s t := by
  unfold decodePayload at e
  split_ifs at e with h1 h2
  · rw [need_next] at e
    rw [e, failed_measured_need]
    exact .length h l .needPayload _ (.inl rfl)
  · rw [raise_next] at e
    rw [e, failed_measured]
    exact .length h l .dstTooSmall 0 (.inr ⟨.inr rfl, rfl⟩)
  · obtain ⟨p, hp, e⟩ := reading_next.1 e
    rw [finishOk_next] at e
    have hl := State.readBytes_length hp
    subst hl
    rw [e, show (measured s h p.length).dstAddr = s.dstAddr from rfl, succeeded_measured]
    exact .ok h key p hin (Nat.le_of_not_lt h2) (Nat.le_of_not_lt h1) hk
      ((State.readBytes_congr (s := s) (t := measured s h p.length) rfl _ _).trans hp)

theorem decodeKey_ends {h : FrameHeader} {l : Nat} {s t : State}
    (hin : s.dstAddr.toNat + s.dstCap.toNat ≤ s.cfg.bufSize) (e : decodeKey h l (measured s h l) = .next t) :
    DecodeEnds s t := by
  unfold decodeKey at e
  split_ifs at e with h1 h2
  · exact decodePayload_ends (by simp [h1]) hin e
  · rw [need_next] at e
    rw [e, failed_measured_need]
    exact .length h l .needMaskKey _ (.inl rfl)
  · obtain ⟨k, -, e⟩ := reading_next.1 e
    exact decodePayload_ends (by simpa using h1) hin e

theorem decodeKnownLength_ends {h : FrameHeader} {l : Nat} {s t : State}
    (hin : s.dstAddr.toNat + s.dstCap.toNat ≤ s.cfg.bufSize)
    (e : decodeKnownLength h l (s.clearResults.setFrame (headerWord h false)) = .next t) : DecodeEnds s t := by
  unfold decodeKnownLength at e
  split at e
  · rename_i c hc
    rw [raise_next] at e
    rw [e, show ((s.clearResults.setFrame (headerWord h false)).setPaylen l).setFrame (headerWord h true)
      = measured s h l from rfl, failed_measured]
    exact .length h l c 0 (.inr ⟨.inl (lengthCheck_protocolError hc), rfl⟩)
  · exact decodeKey_ends hin e

theorem decodeHeader_ends {h : FrameHeader} {s t : State} (hin : s.dstAddr.toNat + s.dstCap.toNat ≤ s.cfg.bufSize)
    (e : decodeHeader h s.clearResults = .next t) : DecodeEnds s t := by
  unfold decodeHeader at e
  split at e
  · rename_i c hc
    rw [raise_next] at e
    rw [e, failed_header]
    exact .header h c 0 (.inr ⟨headerCheck_protocolError hc, rfl⟩)
  · unfold decodeLength at e
    split_ifs at e with h1 h2
    · exact decodeKnownLength_ends hin e
    · rw [need_next] at e
      rw [e, failed_header_need]
      exact .header h .needExtLen _ (.inl ⟨rfl, rfl⟩)
    · obtain ⟨x, -, e⟩ := reading_next.1 e
      exact decodeKnownLength_ends hin e

/-- Every way DECODE, or a frame row, ends in a next state. -/
theorem runDecode_ends {r0 r1 : Except Fault Byte} {s t : State} (e : runDecode r0 r1 s = .next t) : DecodeEnds s t := by
  obtain ⟨-, e⟩ | ⟨-, -, -, e⟩ | ⟨-, hd, -, e⟩ := withRegions_next.1 e
  · rw [e, failed_cleared]
    exact .early .regionOutOfRange 0 (.inr ⟨rfl, rfl⟩)
  · rw [e, failed_cleared]
    exact .early .regionOverlap 0 (.inr ⟨rfl, rfl⟩)
  · unfold decodeBody at e
    split_ifs at e
    · rw [need_next] at e
      rw [e, failed_early]
      exact .early .needBaseHeader 2 (.inl ⟨rfl, rfl⟩)
    · obtain ⟨b0, -, e⟩ := reading_next.1 e
      obtain ⟨b1, -, e⟩ := reading_next.1 e
      exact decodeHeader_ends (inRange_true.1 hd) e

theorem encodeCheck_cmdError {client fin msk : Bool} {fop : BitVec 4} {l : Nat} {c : Cause}
    (e : encodeCheck client fop fin msk l = some c) : causeResult c = .cmdError := by
  unfold encodeCheck at e
  split_ifs at e <;> cases e <;> rfl

@[simp] theorem encodeKey_clearResults (msk : Bool) (s : State) : (encodeKey msk s.clearResults).1 = (encodeKey msk s).1 := by
  unfold encodeKey
  cases msk <;> cases h : ctrlKeySrc s.ctrl <;> simp [State.draw, h]

/-- The length of the frame ENCODE writes. -/
theorem encodeBytes_length (fop : BitVec 4) (fin : Bool) (key : Option Word) (p : List Byte) :
    (encodeBytes fop fin key p).length = encodeHdrLen key.isSome p.length + p.length := by
  cases key <;> simp [encodeBytes, encodeHdrLen, keyBytes] <;> omega

/-- The two ways ENCODE ends (42_encode.md R171). -/
inductive EncodeEnds (fop : BitVec 4) (fin msk : Bool) (s : State) : State → Prop where
  | failed (c : Cause) (hc : causeResult c = .cmdError) : EncodeEnds fop fin msk s (failed s c 0 0 0 0)
  | ok (p : List Byte) (hread : s.readBytes s.srcAddr.toNat s.srcLen.toNat = .ok p)
      (hin : s.dstAddr.toNat + s.dstCap.toNat ≤ s.cfg.bufSize)
      (hfit : encodeHdrLen msk p.length + p.length ≤ s.dstCap.toNat)
      (hchk : encodeCheck (ctrlClient s.ctrl) fop fin msk p.length = none)
      (hovl : overlap (srcRegion s) (dstRegion s) = false) :
      EncodeEnds fop fin msk s
        (succeeded s (encodeFrameWord fop fin msk p.length) p.length (encodeHdrLen msk p.length + p.length)
          (encodeBytes fop fin (encodeKey msk s).1 p) (encodeKey msk s).1
          (s.draws + if msk = true ∧ ctrlKeySrc s.ctrl = false then 1 else 0))

/-- Every way ENCODE ends in a next state. -/
theorem execEncode_ends {fop : BitVec 4} {fin msk : Bool} {s t : State} (e : execEncode fop fin msk s = .next t) :
    EncodeEnds fop fin msk s t := by
  obtain ⟨-, e⟩ | ⟨-, -, -, e⟩ | ⟨-, hd, ho, e⟩ := withRegions_next.1 e
  · rw [e, failed_cleared]
    exact .failed .regionOutOfRange rfl
  · rw [e, failed_cleared]
    exact .failed .regionOverlap rfl
  · unfold encodeBody at e
    split at e
    · rename_i c hc
      rw [raise_next] at e
      rw [e, failed_cleared]
      exact .failed c (encodeCheck_cmdError hc)
    · rename_i hc
      split_ifs at e with h1
      · rw [raise_next] at e
        rw [e, failed_cleared]
        exact .failed .dstTooSmall rfl
      · obtain ⟨p, hp, e⟩ := reading_next.1 e
        rw [finishOk_next, encodeKey_state] at e
        simp only [State.clearResults_srcAddr, State.clearResults_srcLen, State.clearResults_dstAddr,
          State.clearResults_draws, State.clearResults_ctrl, encodeKey_clearResults] at hp e
        rw [State.readBytes_congr (s := s.clearResults) (t := s) rfl] at hp
        have hl := State.readBytes_length hp
        rw [e]
        refine (succeeded_encode s _ _ _ _ _ _).symm ▸ ?_
        have h := EncodeEnds.ok (fop := fop) (fin := fin) (msk := msk) p hp (inRange_true.1 hd)
          (by rw [hl]; exact Nat.le_of_not_lt h1) (by rw [hl]; exact hc) ho
        rw [hl] at h
        exact h

/-- The two ways MASK ends (43_mask.md R190). -/
inductive MaskEnds (s : State) : State → Prop where
  | failed (c : Cause) (hc : causeResult c = .cmdError) : MaskEnds s (failed s c 0 0 0 0)
  | ok (p : List Byte) (hread : s.readBytes s.srcAddr.toNat s.srcLen.toNat = .ok p)
      (hin : s.dstAddr.toNat + s.dstCap.toNat ≤ s.cfg.bufSize) (hfit : p.length ≤ s.dstCap.toNat)
      (hsrc : s.srcAddr.toNat + s.srcLen.toNat ≤ s.cfg.bufSize)
      (hovl : (overlap (srcRegion s) (dstRegion s) && s.srcAddr != s.dstAddr) = false) :
      MaskEnds s (succeeded s 0 0 p.length (xorMask s.maskKey p) none s.draws)

/-- Every way MASK ends in a next state. -/
theorem execMask_ends {s t : State} (e : execMask s = .next t) : MaskEnds s t := by
  obtain ⟨-, e⟩ | ⟨-, -, -, e⟩ | ⟨hs, hd, ho, e⟩ := withRegions_next.1 e
  · rw [e, failed_cleared]
    exact .failed .regionOutOfRange rfl
  · rw [e, failed_cleared]
    exact .failed .regionOverlap rfl
  · unfold maskBody at e
    split_ifs at e with h1
    · rw [raise_next] at e
      rw [e, failed_cleared]
      exact .failed .dstTooSmall rfl
    · obtain ⟨p, hp, e⟩ := reading_next.1 e
      rw [finishOk_next] at e
      simp only [State.clearResults_srcAddr, State.clearResults_srcLen, State.clearResults_dstAddr,
        State.clearResults_maskKey] at hp e
      rw [State.readBytes_congr (s := s.clearResults) (t := s) rfl] at hp
      have hl := State.readBytes_length hp
      rw [e]
      refine (succeeded_mask s _ _).symm ▸ ?_
      have h := MaskEnds.ok p hp (inRange_true.1 hd) (by rw [hl]; exact Nat.le_of_not_lt h1) (inRange_true.1 hs) ho
      rw [hl] at h
      exact h

/-- The four ways VALIDATE ends (44_validate.md R201): refused, incomplete, judged with a cause, accepted. -/
inductive ValidateEnds (s : State) : State → Prop where
  | refused (c : Cause) (hc : c = .regionOutOfRange ∨ c = .auxEmpty) : ValidateEnds s (failed s c 0 0 0 0)
  | incomplete : ValidateEnds s (failed s .needHeaderEnd 0 0 0 (s.srcLen.toNat + 1))
  | judged (c : Cause) (b : List Byte) (hc : causeResult c = .handshakeFailed) :
      ValidateEnds s (failed s c 0 0 (b.length + 4) 0)
  | accepted (b : List Byte) : ValidateEnds s (succeeded s 0 0 (b.length + 4) [] none s.draws)

theorem linesCheck_handshakeFailed {lines : List (List Byte)} {c : Cause} (e : linesCheck lines = some c) :
    causeResult c = .handshakeFailed := by
  unfold linesCheck at e
  split_ifs at e <;> cases e <;> rfl

/-- Every way VALIDATE ends in a next state. -/
theorem execValidate_ends {s t : State} (e : execValidate s = .next t) : ValidateEnds s t := by
  obtain ⟨-, e⟩ | ⟨-, -, ho, -⟩ | ⟨-, -, -, e⟩ := withRegions_next.1 e
  · rw [e, failed_cleared]
    exact .refused .regionOutOfRange (.inl rfl)
  · cases ho
  · unfold validateBody at e
    split_ifs at e
    · rw [raise_next] at e
      rw [e, failed_cleared]
      exact .refused .auxEmpty (.inr rfl)
    · obtain ⟨b, -, e⟩ := reading_next.1 e
      cases b with
      | none =>
        rw [need_next] at e
        rw [e, failed_early]
        exact .incomplete
      | some b =>
        simp only [validateBlock] at e
        split at e
        · rename_i c hc
          rw [raise_next] at e
          rw [e, failed_consumed]
          exact .judged c b (linesCheck_handshakeFailed hc)
        · obtain ⟨x, -, e⟩ := reading_next.1 e
          split_ifs at e
          · rw [finishOk_next] at e
            rw [e, succeeded_validate]
            exact .accepted b
          · rw [raise_next] at e
            rw [e, failed_consumed]
            exact .judged .acceptMismatch b rfl

end Sys2Proof.Machine
end

