-- ==== Sys2Proof/Laws/PerInstr.lean ====
section
/-!
SUPPORT. For each instruction, that its encoding lies in its row of spec/opcode_table.json, by the row's match and mask and
the fields' positions there.
-/

namespace Sys2Proof.Laws.TableRow

/-- A command word of the row with this mask and match. -/
def CommandRow (mask row : Word) (c : Code) : Prop :=
  match c with
  | .command w => w &&& mask = row
  | _ => False

/-- A byte 0 of the row with this match (mask 0x0F), with FIN in bit 7 and RSV in bits 6:4. -/
def Byte0Row (row : Byte) (fin : Bool) (rsv : BitVec 3) (c : Code) : Prop :=
  match c with
  | .byte0 b => b &&& 0x0F = row ∧ byte0Fin b = fin ∧ byte0Rsv b = rsv
  | _ => False

/-- The row of an instruction: format, match and mask, fields. An `illegal` is in no command row. -/
def Statement : Instr → Prop
  | .decode => CommandRow 0xFFFFFFFF 0x00000001 (encode .decode)
  | .encode fop fin msk => CommandRow 0xFFFFC0FF 0x00000002 (encode (.encode fop fin msk)) ∧
      (encodeWord fop fin msk).extractLsb' 8 4 = fop ∧ (encodeWord fop fin msk).getLsbD 12 = fin ∧
      (encodeWord fop fin msk).getLsbD 13 = msk
  | .mask => CommandRow 0xFFFFFFFF 0x00000003 (encode .mask)
  | .validate => CommandRow 0xFFFFFFFF 0x00000004 (encode .validate)
  | .clear => CommandRow 0xFFFFFFFF 0x0000000F (encode .clear)
  | .illegal w => (Instr.illegal w).wellFormed = true → encode (.illegal w) = .command w ∧ w ≠ 0x00000001 ∧
      ¬ CommandRow 0xFFFFC0FF 0x00000002 (.command w) ∧ w ≠ 0x00000003 ∧ w ≠ 0x00000004 ∧ w ≠ 0x0000000F
  | .frameContinuation fin rsv => Byte0Row 0x00 fin rsv (encode (.frameContinuation fin rsv))
  | .frameText fin rsv => Byte0Row 0x01 fin rsv (encode (.frameText fin rsv))
  | .frameBinary fin rsv => Byte0Row 0x02 fin rsv (encode (.frameBinary fin rsv))
  | .frameReserved3 fin rsv => Byte0Row 0x03 fin rsv (encode (.frameReserved3 fin rsv))
  | .frameReserved4 fin rsv => Byte0Row 0x04 fin rsv (encode (.frameReserved4 fin rsv))
  | .frameReserved5 fin rsv => Byte0Row 0x05 fin rsv (encode (.frameReserved5 fin rsv))
  | .frameReserved6 fin rsv => Byte0Row 0x06 fin rsv (encode (.frameReserved6 fin rsv))
  | .frameReserved7 fin rsv => Byte0Row 0x07 fin rsv (encode (.frameReserved7 fin rsv))
  | .frameClose fin rsv => Byte0Row 0x08 fin rsv (encode (.frameClose fin rsv))
  | .framePing fin rsv => Byte0Row 0x09 fin rsv (encode (.framePing fin rsv))
  | .framePong fin rsv => Byte0Row 0x0A fin rsv (encode (.framePong fin rsv))
  | .frameReservedB fin rsv => Byte0Row 0x0B fin rsv (encode (.frameReservedB fin rsv))
  | .frameReservedC fin rsv => Byte0Row 0x0C fin rsv (encode (.frameReservedC fin rsv))
  | .frameReservedD fin rsv => Byte0Row 0x0D fin rsv (encode (.frameReservedD fin rsv))
  | .frameReservedE fin rsv => Byte0Row 0x0E fin rsv (encode (.frameReservedE fin rsv))
  | .frameReservedF fin rsv => Byte0Row 0x0F fin rsv (encode (.frameReservedF fin rsv))
  | .frameB1 masked len7 => ∃ b, encode (.frameB1 masked len7) = .byte1 b ∧ byte1Masked b = masked ∧ byte1Len7 b = len7

theorem byte0Of_fields : ∀ (op : BitVec 4) (fin : Bool) (rsv : BitVec 3),
    byte0Of op fin rsv &&& 0x0F = (0 : BitVec 4) ++ op ∧ byte0Fin (byte0Of op fin rsv) = fin ∧
      byte0Rsv (byte0Of op fin rsv) = rsv := by
  decide +kernel

theorem byte1Of_fields : ∀ (masked : Bool) (len7 : BitVec 7),
    byte1Masked (byte1Of masked len7) = masked ∧ byte1Len7 (byte1Of masked len7) = len7 := by
  decide +kernel

theorem encodeWord_fields : ∀ (fop : BitVec 4) (fin msk : Bool),
    encodeWord fop fin msk &&& 0xFFFFC0FF = 0x00000002 ∧ (encodeWord fop fin msk).extractLsb' 8 4 = fop ∧
      (encodeWord fop fin msk).getLsbD 12 = fin ∧ (encodeWord fop fin msk).getLsbD 13 = msk := by
  decide +kernel

theorem decode : Statement .decode := by simp [Statement, CommandRow, Sys2Proof.encode]

theorem encode (fop : BitVec 4) (fin msk : Bool) : Statement (.encode fop fin msk) := encodeWord_fields fop fin msk

theorem mask : Statement .mask := by simp [Statement, CommandRow, Sys2Proof.encode]

theorem validate : Statement .validate := by simp [Statement, CommandRow, Sys2Proof.encode]

theorem clear : Statement .clear := by simp [Statement, CommandRow, Sys2Proof.encode]

theorem illegal (w : Word) : Statement (.illegal w) := by
  simp [Statement, CommandRow, Sys2Proof.encode, Instr.wellFormed, legalWord, and_assoc]

theorem frameContinuation (fin : Bool) (rsv : BitVec 3) : Statement (.frameContinuation fin rsv) := byte0Of_fields 0x0 fin rsv

theorem frameText (fin : Bool) (rsv : BitVec 3) : Statement (.frameText fin rsv) := byte0Of_fields 0x1 fin rsv

theorem frameBinary (fin : Bool) (rsv : BitVec 3) : Statement (.frameBinary fin rsv) := byte0Of_fields 0x2 fin rsv

theorem frameReserved3 (fin : Bool) (rsv : BitVec 3) : Statement (.frameReserved3 fin rsv) := byte0Of_fields 0x3 fin rsv

theorem frameReserved4 (fin : Bool) (rsv : BitVec 3) : Statement (.frameReserved4 fin rsv) := byte0Of_fields 0x4 fin rsv

theorem frameReserved5 (fin : Bool) (rsv : BitVec 3) : Statement (.frameReserved5 fin rsv) := byte0Of_fields 0x5 fin rsv

theorem frameReserved6 (fin : Bool) (rsv : BitVec 3) : Statement (.frameReserved6 fin rsv) := byte0Of_fields 0x6 fin rsv

theorem frameReserved7 (fin : Bool) (rsv : BitVec 3) : Statement (.frameReserved7 fin rsv) := byte0Of_fields 0x7 fin rsv

theorem frameClose (fin : Bool) (rsv : BitVec 3) : Statement (.frameClose fin rsv) := byte0Of_fields 0x8 fin rsv

theorem framePing (fin : Bool) (rsv : BitVec 3) : Statement (.framePing fin rsv) := byte0Of_fields 0x9 fin rsv

theorem framePong (fin : Bool) (rsv : BitVec 3) : Statement (.framePong fin rsv) := byte0Of_fields 0xA fin rsv

theorem frameReservedB (fin : Bool) (rsv : BitVec 3) : Statement (.frameReservedB fin rsv) := byte0Of_fields 0xB fin rsv

theorem frameReservedC (fin : Bool) (rsv : BitVec 3) : Statement (.frameReservedC fin rsv) := byte0Of_fields 0xC fin rsv

theorem frameReservedD (fin : Bool) (rsv : BitVec 3) : Statement (.frameReservedD fin rsv) := byte0Of_fields 0xD fin rsv

theorem frameReservedE (fin : Bool) (rsv : BitVec 3) : Statement (.frameReservedE fin rsv) := byte0Of_fields 0xE fin rsv

theorem frameReservedF (fin : Bool) (rsv : BitVec 3) : Statement (.frameReservedF fin rsv) := byte0Of_fields 0xF fin rsv

theorem frameB1 (masked : Bool) (len7 : BitVec 7) : Statement (.frameB1 masked len7) :=
  ⟨byte1Of masked len7, rfl, byte1Of_fields masked len7⟩

end Sys2Proof.Laws.TableRow
end

