-- ==== Sys2Proof/Laws/Steps.lean ====
section
/-!
SUPPORT. What one instruction and one step can do, said once: every ending of `exec`, and every effect of a transaction.
-/

namespace Sys2Proof.Machine

/-- The instructions that run DECODE: the command and the frame rows. -/
def isDecoding : Instr → Bool
  | .encode _ _ _ | .mask | .validate | .clear | .illegal _ => false
  | _ => true

/-- Every way an instruction ends in a next state. -/
inductive ExecEnds (i : Instr) (s t : State) : Prop where
  | decode (hi : isDecoding i = true) (h : DecodeEnds s t)
  | encode (fop : BitVec 4) (fin msk : Bool) (hi : i = .encode fop fin msk) (h : EncodeEnds fop fin msk s t)
  | mask (hi : i = .mask) (h : MaskEnds s t)
  | validate (hi : i = .validate) (h : ValidateEnds s t)
  | clear (hi : i = .clear) (h : t = s.clearResults.setStatus 0)
  | illegal (w : Word) (hi : i = .illegal w) (h : t = failed s (illegalCause w) 0 0 0 0)

theorem exec_ends {i : Instr} {s t : State} (e : exec i s = .next t) : ExecEnds i s t := by
  cases i with
  | encode fop fin msk => exact .encode fop fin msk rfl (execEncode_ends e)
  | mask => exact .mask rfl (execMask_ends e)
  | validate => exact .validate rfl (execValidate_ends e)
  | clear =>
    simp only [exec, execClear, Host.Outcome.next.injEq] at e
    exact .clear rfl e.symm
  | illegal w =>
    simp only [exec, execIllegal, raise_next] at e
    exact .illegal w rfl (by rw [e, failed_cleared])
  | _ => exact .decode rfl (runDecode_ends e)

theorem illegalCause_cmdError (w : Word) : causeResult (illegalCause w) = .cmdError := by
  unfold illegalCause
  split <;> rfl

/-- STATUS of a cause shows the RESULT of the cause's table. -/
theorem statusResult_statusOf (c : Cause) : statusResult (statusOf c) = resultCode (causeResult c) := by cases c <;> decide

/-- STATUS of a cause is not OK. -/
theorem statusOf_ne_ok (c : Cause) : statusOf c ≠ statusOk := by cases c <;> decide

/-- Every effect a transaction can have: a command, a register write, an answer, bytes stored in BUF, reset. -/
inductive Served (s t : State) : Prop where
  | command (i : Instr) (h : exec i s = .next t)
  | register (r : Reg) (v : Word) (h : t = s.writeReg r v)
  | answer (r : Reply) (h : t = { s with reply := r })
  | store (a : Nat) (bs : List Byte) (hin : a + bs.length ≤ s.cfg.bufSize) (h : t = s.writeBuf a bs)
  | reset (h : t = resetState s)

theorem hostWrite_served {off bits : Nat} {v : Word} {s t : State} (h : hostWrite off bits v s = .next t) : Served s t := by
  unfold hostWrite at h
  split_ifs at h
  split at h
  · exact .command _ h
  · exact .register _ v (by simpa [eq_comm] using h)
  · exact .register .id v (by simpa [eq_comm, State.writeReg] using h)

theorem hostRead_served {off bits : Nat} {s t : State} (h : hostRead off bits s = .next t) : Served s t := by
  unfold hostRead at h
  split_ifs at h
  exact .answer (.word (s.readOffset off)) (by simpa [eq_comm] using h)

theorem hostBufWrite_served {a : Nat} {b : Byte} {s t : State} (h : hostBufWrite a b s = .next t) : Served s t := by
  unfold hostBufWrite at h
  split_ifs at h with h1
  exact .store a [b] (by simpa using h1) (by simpa [eq_comm] using h)

theorem hostBufWriteWide_served {a : Nat} {v : Word} {s t : State} (h : hostBufWriteWide a v s = .next t) : Served s t := by
  unfold hostBufWriteWide at h
  split_ifs at h with h1 h2
  exact .store a (laneBytes v) (by simpa [laneBytes] using h2) (by simpa [eq_comm] using h)

theorem hostBufRead_served {a : Nat} {s t : State} (h : hostBufRead a s = .next t) : Served s t := by
  unfold hostBufRead at h
  split_ifs at h
  obtain ⟨b, -, h⟩ := reading_next.1 h
  exact .answer (.byte b) (by simpa [eq_comm] using h)

theorem hostBufReadWide_served {a : Nat} {s t : State} (h : hostBufReadWide a s = .next t) : Served s t := by
  unfold hostBufReadWide at h
  split_ifs at h
  obtain ⟨bs, -, h⟩ := reading_next.1 h
  exact .answer (.word (laneWord bs)) (by simpa [eq_comm] using h)

/-- Every transaction that ends in a next state has one of those effects. -/
theorem serve_served {op : HostOp} {s t : State} (h : serve op s = .next t) : Served s t := by
  cases op with
  | regWrite off bits v => exact hostWrite_served h
  | regRead off bits => exact hostRead_served h
  | bufWrite a b => exact hostBufWrite_served h
  | bufRead a => exact hostBufRead_served h
  | bufWriteWide a v => exact hostBufWriteWide_served h
  | bufReadWide a => exact hostBufReadWide_served h
  | platformWrite addr bits v =>
    simp only [serve, platformWrite] at h
    split at h
    · exact hostWrite_served h
    · split_ifs at h
      · exact hostBufWrite_served h
      · exact hostBufWriteWide_served h
    · cases h
  | platformRead addr bits =>
    simp only [serve, platformRead] at h
    split at h
    · exact hostRead_served h
    · split_ifs at h
      · exact hostBufRead_served h
      · exact hostBufReadWide_served h
    · cases h
  | reset => exact .reset (by simpa [serve, eq_comm] using h)

/-- A step is idle or serves the oldest transaction. -/
theorem step_next {s t : State} (h : step s = .next t) :
    (s.pending = [] ∧ t = s) ∨ ∃ op rest, s.pending = op :: rest ∧ serve op (s.taken rest) = .next t := by
  unfold step serveNext at h
  split at h
  · rename_i hp
    exact .inl ⟨hp, by simpa [eq_comm] using h⟩
  · rename_i op rest hp
    exact .inr ⟨op, rest, hp, h⟩

end Sys2Proof.Machine
end

