-- ==== Sys2Proof/Tests/Slice0.lean ====
section
/-!
SUPPORT. The model's own tests: the checks of WellFormed, words written out from the encodings, single commands with the
results of 95_test_vectors.md, and for each statement with hypotheses a state that meets them.
-/

namespace Sys2Proof.Tests

open Sys2Proof.Machine Sys2Proof.Stated Sys2Proof.Safety

-- One theorem after the other: each kernel evaluation waits for the ones before it, and a waiting theorem holds a thread.
set_option Elab.async false

/-! ## Helpers -/

/-- The outcome is a next state with this property. -/
def ends (o : Out) (p : State → Bool) : Bool :=
  match o with
  | .next t => p t
  | _ => false

theorem ends_next {o : Out} {p : State → Bool} (h : ends o p = true) : ∃ t, o = .next t ∧ p t = true := by
  cases o with
  | next t => exact ⟨t, rfl, h⟩
  | fault _ => cases h
  | refused _ => cases h

/-- The outcome is this next state. -/
def nextIs (o : Out) (t : State) : Bool := ends o fun u => u == t

/-- The outcome is this fault. -/
def faultIs (o : Out) (f : Fault) : Bool :=
  match o with
  | .fault g => g == f
  | _ => false

/-- The outcome is this refusal. -/
def refusalIs (o : Out) (r : Refusal) : Bool :=
  match o with
  | .refused q => q == r
  | _ => false

/-- Source bytes at address 0, a destination of this capacity at 512; CTRL as given. -/
def scene (ctrl : Word) (cap : Word) (bs : List Byte) : State :=
  { State.reset with
    ctrl := ctrl, srcLen := BitVec.ofNat 32 bs.length, dstAddr := 512, dstCap := cap, buf := Memory.writeBytes [] 0 bs }

/-- Response bytes at address 0, expected value at 512. -/
def answer (bs x : List Byte) : State :=
  { State.reset with
    srcLen := BitVec.ofNat 32 bs.length, auxAddr := 512, auxLen := BitVec.ofNat 32 x.length
    buf := (Memory.writeBytes [] 0 bs).writeBytes 512 x }

/-- The machine with one transaction pending. -/
def asked (op : HostOp) (s : State) : State := { s with pending := [op] }

/-- "Hello". -/
def hello : List Byte := [0x48, 0x65, 0x6C, 0x6C, 0x6F]

/-- The masked Text frame of "Hello" with key 0x37FA213D (95_test_vectors.md §1.3). -/
def maskedHello : List Byte := [0x81, 0x85, 0x37, 0xFA, 0x21, 0x3D, 0x7F, 0x9F, 0x4D, 0x51, 0x58]

/-! ## WellFormed: each check refuses a term -/

/-- DECODE's word is no illegal word. -/
theorem test_ill_formed_decode : (Instr.illegal 0x00000001).wellFormed = false := by decide

/-- An ENCODE word with FOP 1, FIN and MSK set. -/
theorem test_ill_formed_encode : (Instr.illegal 0x00003102).wellFormed = false := by decide

theorem test_ill_formed_mask : (Instr.illegal 0x00000003).wellFormed = false := by decide

theorem test_ill_formed_validate : (Instr.illegal 0x00000004).wellFormed = false := by decide

theorem test_ill_formed_clear : (Instr.illegal 0x0000000F).wellFormed = false := by decide

/-- An ENCODE word with bit 14 set is illegal, so it is well formed as one. -/
theorem test_well_formed_illegal : (Instr.illegal 0x00004102).wellFormed = true := by decide

/-! ## Decode: one word for each constructor, from 30_encoding.md R80-R88 and the vectors of 95_test_vectors.md §2.1 -/

theorem test_decode_decode : decodeTableWord 32 0x00000001 = some .decode := by decide +kernel

theorem test_decode_encode : decodeTableWord 32 0x00002A02 = some (.encode 0xA false true) := by decide +kernel

theorem test_decode_mask : decodeTableWord 32 0x00000003 = some .mask := by decide +kernel

theorem test_decode_validate : decodeTableWord 32 0x00000004 = some .validate := by decide +kernel

theorem test_decode_clear : decodeTableWord 32 0x0000000F = some .clear := by decide +kernel

theorem test_decode_unassigned_word : decodeTableWord 32 0x0000000E = some (.illegal 0x0000000E) := by decide +kernel

theorem test_decode_reserved_bit_word : decodeTableWord 32 0x00004002 = some (.illegal 0x00004002) := by decide +kernel

theorem test_decode_frameContinuation : decodeTableWord 8 0x80 = some (.frameContinuation true 0) := by decide +kernel

theorem test_decode_frameText : decodeTableWord 8 0x01 = some (.frameText false 0) := by decide +kernel

theorem test_decode_frameBinary : decodeTableWord 8 0xC2 = some (.frameBinary true 4) := by decide +kernel

theorem test_decode_frameReserved3 : decodeTableWord 8 0x83 = some (.frameReserved3 true 0) := by decide +kernel

theorem test_decode_frameReserved4 : decodeTableWord 8 0x94 = some (.frameReserved4 true 1) := by decide +kernel

theorem test_decode_frameReserved5 : decodeTableWord 8 0x25 = some (.frameReserved5 false 2) := by decide +kernel

theorem test_decode_frameReserved6 : decodeTableWord 8 0xF6 = some (.frameReserved6 true 7) := by decide +kernel

theorem test_decode_frameReserved7 : decodeTableWord 8 0x77 = some (.frameReserved7 false 7) := by decide +kernel

theorem test_decode_frameClose : decodeTableWord 8 0x88 = some (.frameClose true 0) := by decide +kernel

theorem test_decode_framePing : decodeTableWord 8 0x89 = some (.framePing true 0) := by decide +kernel

theorem test_decode_framePong : decodeTableWord 8 0x0A = some (.framePong false 0) := by decide +kernel

theorem test_decode_frameReservedB : decodeTableWord 8 0xBB = some (.frameReservedB true 3) := by decide +kernel

theorem test_decode_frameReservedC : decodeTableWord 8 0x4C = some (.frameReservedC false 4) := by decide +kernel

theorem test_decode_frameReservedD : decodeTableWord 8 0xDD = some (.frameReservedD true 5) := by decide +kernel

theorem test_decode_frameReservedE : decodeTableWord 8 0x0E = some (.frameReservedE false 0) := by decide +kernel

theorem test_decode_frameReservedF : decodeTableWord 8 0xEF = some (.frameReservedF true 6) := by decide +kernel

theorem test_decode_frameB1 : decodeCode (.byte1 0xFE) = .frameB1 true 126 := by decide +kernel

/-! ## One command each, from the vectors of 95_test_vectors.md §2 -/

/-- DV3: unmasked Text "Hello" in client role. -/
theorem test_decode_hello :
    ends (exec .decode (scene 3 0x100 ([0x81, 0x05] ++ hello))) (fun t =>
      t.status == 0x00000001 && t.rFrame == 0x00320A81 && t.rConsumed == 7 && t.buf.read 516 == some 0x6F) = true := by
  decide +kernel

/-- DV27: the masked frame in loopback role; the key goes to MASKKEY in wire order. -/
theorem test_decode_masked_hello :
    ends (exec .decode (scene 2 0x100 maskedHello)) (fun t =>
      t.status == 0x00000001 && t.rFrame == 0x00360B81 && t.rConsumed == 11 && t.maskKey == 0x37FA213D &&
        t.buf.read 512 == some 0x48 && t.buf.read 516 == some 0x6F) = true := by
  decide +kernel

/-- E2: the masked frame of "Hello" under KEYSRC = 1. -/
theorem test_encode_masked_hello :
    ends (exec (.encode 0x1 true true) { scene 7 0x100 hello with maskKey := 0x37FA213D }) (fun t =>
      t.status == 0x00000001 && t.rFrame == 0x00360B81 && t.rConsumed == 11 &&
        t.buf == (Memory.writeBytes [] 0 hello).writeBytes 512 maskedHello) = true := by
  decide +kernel

/-- The MASKKEY and the number of draws a next state has. -/
def keyAndDraws (o : Out) : Option (Word × Nat) :=
  match o with
  | .next t => some (t.maskKey, t.draws)
  | _ => none

/-- 42_encode.md R177: with KEYSRC = 0 the key is the next draw, whatever it is. -/
theorem test_encode_draws :
    keyAndDraws (exec (.encode 0x2 true true) { scene 3 0x100 [] with draws := 5 }) = some (Config.entropyDraw 5, 6) := by
  rfl

/-- 95_test_vectors.md §1.4: the first four bytes under the key 0xDEADBEEF, in place. -/
theorem test_mask_in_place :
    ends (exec .mask { scene 3 5 [0x00, 0x01, 0x02, 0x03, 0x04] with dstAddr := 0, maskKey := 0xDEADBEEF }) (fun t =>
      t.status == 0x00000001 && t.rConsumed == 5 &&
        t.buf == Memory.writeBytes [] 0 [0xDE, 0xAC, 0xBC, 0xEC, 0xDA]) = true := by
  decide +kernel

/-- 95_test_vectors.md §2.3: a partial overlap. -/
theorem test_mask_overlap :
    ends (exec .mask { scene 2 8 [0, 0, 0, 0, 0, 0, 0, 0] with dstAddr := 4 }) (fun t => t.status == 0x00002305) = true := by
  decide +kernel

/-- 44_validate.md R206: a status line that goes on with another byte than SP. -/
theorem test_validate_status :
    ends (exec .validate (answer (txtStatus ++ [0x31] ++ headerEnd) [0x41])) (fun t =>
      t.status == 0x00001004 && t.rConsumed == 17) = true := by
  decide +kernel

/-- 95_test_vectors.md §2.3: no terminator in ten bytes. -/
theorem test_validate_incomplete :
    ends (exec .validate (answer [0, 0, 0, 0, 0, 0, 0, 0, 0, 0] [0])) (fun t =>
      t.status == 0x00003402 && t.rNeedLo == 11) = true := by
  decide +kernel

/-- 40_dispatch.md R126. -/
theorem test_clear :
    ends (exec .clear { State.reset with status := 0x00003302, rFrame := 0x00320A81, rNeedLo := 7, srcLen := 4 }) (fun t =>
      t == { State.reset with srcLen := 4 }) = true := by
  decide +kernel

/-- 95_test_vectors.md §2.1: CMDOP 0xE, and DECODE with bit 31 set. -/
theorem test_illegal :
    ends (exec (.illegal 0x0000000E) State.reset) (fun t => t.status == 0x00002005) = true ∧
      ends (exec (.illegal 0x80000001) State.reset) (fun t => t.status == 0x00002105) = true := by
  decide +kernel

/-- DV7: an empty Binary frame. -/
theorem test_frameBinary :
    ends (exec (.frameBinary true 0) (scene 3 0 [0x82, 0x00])) (fun t =>
      t.status == 0x00000001 && t.rFrame == 0x00320082 && t.rConsumed == 2) = true := by
  decide +kernel

/-- DV17: RSV is judged before the opcode. -/
theorem test_frameReserved3_rsv :
    ends (exec (.frameReserved3 false 7) (scene 3 0 [0x73, 0x00])) (fun t =>
      t.status == 0x00000103 && t.rFrame == 0x00120073) = true := by
  decide +kernel

/-- DV21: a control frame with len7 = 126. -/
theorem test_framePing_long :
    ends (exec (.framePing true 0) (scene 3 0x100 [0x89, 0x7E, 0x00, 0x7E])) (fun t => t.status == 0x00000503) = true := by
  decide +kernel

/-- DV26: a masked frame in client role. -/
theorem test_frameB1_masked :
    ends (exec (.frameB1 true 5) (scene 3 0x100 maskedHello)) (fun t =>
      t.status == 0x00000303 && t.rFrame == 0x00160B81) = true := by
  decide +kernel

/-- 95_test_vectors.md §2.2: CTRL keeps three bits. -/
theorem test_write_ctrl :
    ends (step (asked (.regWrite 0x04 32 0xFFFFFFFF) State.reset)) (fun t => t.ctrl == 0x00000007) = true := by
  decide +kernel

/-- 20_memory.md R62: a wide write has v[7:0] at the lowest address. -/
theorem test_wide_lanes :
    ends (step (asked (.bufWriteWide 1020 0x01020304) State.reset)) (fun t =>
      t.buf.read 1020 == some 0x04 && t.buf.read 1023 == some 0x01) = true := by
  decide +kernel

/-- From reset, the word 0x00000001 placed for the next step runs DECODE of no bytes (95_test_vectors.md §2.1). -/
theorem test_placed_word :
    ends (step (State.reset.withFetchWord 32 0x00000001)) (fun t =>
      t.status == 0x00003002 && t.rNeedLo == 2) = true := by
  decide +kernel

/-- From reset, the frame byte 0x83 placed for the next step runs its row. -/
theorem test_placed_byte :
    ends (step (State.reset.withFetchWord 8 0x83)) (fun t =>
      t.status == 0x00000203 && t.rFrame == 0x00120083) = true := by
  decide +kernel

/-! ## The hypotheses of the statements can be met

For each statement with hypotheses, a state and operands that meet them, at a boundary of each clause; the conclusion there
is evaluated too. -/

theorem witness_EncodeThenDecodeIsIdentity :
    (Instr.illegal 0x00000102).wellFormed = false ∧ (Instr.illegal 0x00000101).wellFormed = true ∧
      (Instr.encode 0xF true true).wellFormed = true := by
  and_intros <;> decide +kernel

theorem witness_StepRunsTheCommandWord :
    (asked (.regWrite 0x08 32 0x0000000F) State.reset).pending = .regWrite 0x08 32 0x0000000F :: [] ∧
      (asked (.regRead 0x08 32) State.reset).pending = .regRead 0x08 32 :: [] := by
  and_intros <;> decide +kernel

theorem witness_DecodeRunsTheFrameRow :
    (scene 3 0 [0x82, 0x00]).buf.read (scene 3 0 [0x82, 0x00]).srcAddr.toNat = some 0x82 ∧
      (scene 3 0 [0x82, 0x00]).buf.read ((scene 3 0 [0x82, 0x00]).srcAddr.toNat + 1) = some 0x00 := by
  and_intros <;> decide +kernel

theorem witness_PlacedTableWordRunsNext :
    decodeTableWord 8 0x8F = some (.frameReservedF true 0) := by
  decide +kernel

theorem witness_TransactionsAreServedInOrder_served :
    (asked (.bufWrite 5 0x41) State.reset).pending = .bufWrite 5 0x41 :: [] ∧
      ends (step (asked (.bufWrite 5 0x41) State.reset)) (fun t => t.buf.read 5 == some 0x41 && t.pending == []) = true := by
  and_intros <;> decide +kernel

theorem witness_TransactionsAreServedInOrder :
    (∃ t, step State.reset = .next t ∧ (State.reset.pending == [] && t == State.reset) = true) ∧
      ∃ t, step { State.reset with pending := [.regRead 0 32, .reset] } = .next t ∧ (t.pending == [.reset]) = true := 
  ⟨ends_next (p := fun t => State.reset.pending == [] && t == State.reset) (by decide +kernel),
    ends_next (p := fun t => t.pending == [.reset]) (by decide +kernel)⟩

theorem witness_IllegalWordsEndInCmdError :
    (0x00000005 : Word).toNat % 16 ∉ [0x1, 0x2, 0x3, 0x4, 0xF] ∧ (0x0000000E : Word).toNat % 16 ∉ [0x1, 0x2, 0x3, 0x4, 0xF] ∧
      ((0x00004002 : Word).toNat % 16 = 0x2 ∧ (0x00004002 : Word) &&& 0xFFFFC0F0 ≠ 0) ∧
      ((0x0000001F : Word).toNat % 16 ∈ [0x1, 0x3, 0x4, 0xF] ∧ (0x0000001F : Word) &&& 0xFFFFFFF0 ≠ 0) := by
  and_intros <;> decide +kernel

theorem witness_ClearLeavesNone :
    (∃ t, exec .clear (scene 3 0 []) = .next t ∧ (t.status.extractLsb' 0 4 == 0) = true) ∧
      (∃ t, exec .mask (scene 3 0 []) = .next t ∧ (t.status.extractLsb' 0 4 == 1) = true) := 
    ⟨ends_next (p := fun t => (t.status.extractLsb' 0 4 == 0)) (by decide +kernel), ends_next (p := fun t => (t.status.extractLsb' 0 4 == 1)) (by decide +kernel)⟩

theorem witness_RegionOutOfRangeIsRefused :
    ¬ SrcFits { State.reset with srcAddr := 0xFFFFFFFF, srcLen := 2 } ∧ ¬ DstFits { State.reset with dstAddr := 1000, dstCap := 25 } ∧
      ¬ AuxFits { State.reset with auxAddr := 1020, auxLen := 5 } ∧
      nextIs (exec .decode { State.reset with dstAddr := 1000, dstCap := 25 })
        (outcome { State.reset with dstAddr := 1000, dstCap := 25 } 0x00002205 0 0 0 0) = true := by
  and_intros <;> decide +kernel

theorem witness_RegionOverlapIsRefused :
    (SrcFits { State.reset with srcLen := 10, dstAddr := 9, dstCap := 10 } ∧
        DstFits { State.reset with srcLen := 10, dstAddr := 9, dstCap := 10 } ∧
        Overlapping { State.reset with srcLen := 10, dstAddr := 9, dstCap := 10 }) ∧
      ¬ Overlapping { State.reset with srcLen := 10, dstAddr := 10, dstCap := 10 } ∧
      Overlapping { State.reset with srcLen := 10, dstCap := 10 } ∧
      ends (exec .mask { scene 3 1 [0] with dstAddr := 0 }) (fun t => t.status == 0x00000001) = true ∧
      ends (exec .validate State.reset) (fun t => t.status == 0x00002905) = true := by
  and_intros <;> decide +kernel

theorem witness_CommandsKeepTheOperands :
    (∃ t, exec .decode (scene 3 0 [0x82, 0x00]) = .next t ∧ (t.srcLen == 2) = true) ∧
      (∃ t, step (asked (.bufWrite 0 0) State.reset) = .next t ∧ (t.maskKey == 0) = true) := 
    ⟨ends_next (p := fun t => (t.srcLen == 2)) (by decide +kernel), ends_next (p := fun t => (t.maskKey == 0)) (by decide +kernel)⟩

theorem witness_FailedCommandsWriteNothing :
    (∃ t, exec .decode (scene 3 0x100 [0x81]) = .next t ∧ (t.status == 0x00003002) = true) ∧
      (∃ t, exec (.encode 0xF true true) (scene 3 0x100 []) = .next t ∧ (t.status == 0x00002505) = true) := 
    ⟨ends_next (p := fun t => (t.status == 0x00003002)) (by decide +kernel), ends_next (p := fun t => (t.status == 0x00002505)) (by decide +kernel)⟩

theorem witness_MemoryFrame :
    (∃ t, exec .decode (scene 3 0x100 ([0x81, 0x05] ++ hello)) = .next t ∧ (storedBytes .decode t == 5) = true) ∧
      (∃ t, exec (.encode 0x1 true false) (scene 2 0x100 hello) = .next t ∧ (storedBytes (.encode 0x1 true false) t == 7) = true) ∧
      (∃ t, exec .mask (scene 2 0x100 hello) = .next t ∧ (storedBytes .mask t == 5) = true) ∧
      (∃ t, exec .validate (scene 2 0x100 hello) = .next t ∧ (storedBytes .validate t == 0) = true) := 
    ⟨ends_next (p := fun t => (storedBytes .decode t == 5)) (by decide +kernel), ends_next (p := fun t => (storedBytes (.encode 0x1 true false) t == 7)) (by decide +kernel), ends_next (p := fun t => (storedBytes .mask t == 5)) (by decide +kernel), ends_next (p := fun t => (storedBytes .validate t == 0)) (by decide +kernel)⟩

theorem witness_MaskKeyHasTwoWriters :
    (∃ t, exec .decode (scene 2 0x100 maskedHello) = .next t ∧ (t.maskKey != (scene 2 0x100 maskedHello).maskKey && t.rFrame.getLsbD 8) = true) := 
    ends_next (p := fun t => (t.maskKey != (scene 2 0x100 maskedHello).maskKey && t.rFrame.getLsbD 8)) (by decide +kernel)

theorem witness_DrawsAreTakenOnlyByEncode :
    (∃ t, exec (.encode 0x1 true true) (scene 3 0x100 hello) = .next t ∧ (t.status == 0x00000001 && t.draws == 1) = true) ∧
      (∃ t, exec (.encode 0x1 true true) (scene 7 0x100 hello) = .next t ∧ (t.status == 0x00000001 && t.draws == 0) = true) := 
    ⟨ends_next (p := fun t => (t.status == 0x00000001 && t.draws == 1)) (by decide +kernel), ends_next (p := fun t => (t.status == 0x00000001 && t.draws == 0)) (by decide +kernel)⟩

/-! ### DECODE -/

theorem witness_DecodeNeedsTwoBytes :
    RegionsPass (scene 3 0x100 [0x81]) ∧ (scene 3 0x100 [0x81]).srcLen.toNat < 2 ∧
      nextIs (exec .decode (scene 3 0x100 [0x81])) (outcome (scene 3 0x100 [0x81]) 0x00003002 0 0 0 2) = true := by
  and_intros <;> decide +kernel

theorem witness_DecodeRejectsTheHeader :
    (RegionsPass (scene 3 0 [0xC1, 0x00]) ∧ FirstBytes (scene 3 0 [0xC1, 0x00]) 0xC1 0x00 ∧
        headerStatus (ctrlClient 3) (headerOf 0xC1 0x00) = some 0x00000103 ∧
        nextIs (exec .decode (scene 3 0 [0xC1, 0x00]))
          (outcome (scene 3 0 [0xC1, 0x00]) 0x00000103 (headerWord (headerOf 0xC1 0x00) false) 0 0 0) = true) ∧
      (RegionsPass (scene 3 0 [0x83, 0x00]) ∧ FirstBytes (scene 3 0 [0x83, 0x00]) 0x83 0x00 ∧
        headerStatus (ctrlClient 3) (headerOf 0x83 0x00) = some 0x00000203 ∧
        nextIs (exec .decode (scene 3 0 [0x83, 0x00]))
          (outcome (scene 3 0 [0x83, 0x00]) 0x00000203 (headerWord (headerOf 0x83 0x00) false) 0 0 0) = true) ∧
      (RegionsPass (scene 3 0 [0x81, 0x85]) ∧ FirstBytes (scene 3 0 [0x81, 0x85]) 0x81 0x85 ∧
        headerStatus (ctrlClient 3) (headerOf 0x81 0x85) = some 0x00000303 ∧
        nextIs (exec .decode (scene 3 0 [0x81, 0x85]))
          (outcome (scene 3 0 [0x81, 0x85]) 0x00000303 (headerWord (headerOf 0x81 0x85) false) 0 0 0) = true) ∧
      (RegionsPass (scene 3 0 [0x09, 0x00]) ∧ FirstBytes (scene 3 0 [0x09, 0x00]) 0x09 0x00 ∧
        headerStatus (ctrlClient 3) (headerOf 0x09 0x00) = some 0x00000403 ∧
        nextIs (exec .decode (scene 3 0 [0x09, 0x00]))
          (outcome (scene 3 0 [0x09, 0x00]) 0x00000403 (headerWord (headerOf 0x09 0x00) false) 0 0 0) = true) ∧
      (RegionsPass (scene 3 0 [0x89, 0x7E]) ∧ FirstBytes (scene 3 0 [0x89, 0x7E]) 0x89 0x7E ∧
        headerStatus (ctrlClient 3) (headerOf 0x89 0x7E) = some 0x00000503 ∧
        nextIs (exec .decode (scene 3 0 [0x89, 0x7E]))
          (outcome (scene 3 0 [0x89, 0x7E]) 0x00000503 (headerWord (headerOf 0x89 0x7E) false) 0 0 0) = true) := by
  and_intros <;> decide +kernel

theorem witness_ControlLengthIsJudgedOnLen7 :
    (FirstBytes (scene 3 0 [0x89, 0x7E]) 0x89 0x7E ∧ ControlOpcode (headerOf 0x89 0x7E).op ∧ (headerOf 0x89 0x7E).rsv = 0 ∧
        (headerOf 0x89 0x7E).fin = true ∧ (headerOf 0x89 0x7E).masked = false ∧ 125 < (headerOf 0x89 0x7E).len7.toNat) ∧
      (FirstBytes (scene 3 0 [0x89, 0x7D]) 0x89 0x7D ∧ ControlOpcode (headerOf 0x89 0x7D).op ∧
        (headerOf 0x89 0x7D).len7.toNat = 125 ∧
        ends (exec .decode (scene 3 0 [0x89, 0x7D])) (fun t => t.status == 0x00003302 && t.rPaylenLo == 125) = true) := by
  and_intros <;> decide +kernel

theorem witness_DecodeReadsTheExtendedLength :
    (RegionsPass (scene 3 0 [0x82, 0x7E, 0x00]) ∧ FirstBytes (scene 3 0 [0x82, 0x7E, 0x00]) 0x82 0x7E ∧
        HeaderAccepted (scene 3 0 [0x82, 0x7E, 0x00]) (headerOf 0x82 0x7E) ∧ (headerOf 0x82 0x7E).len7 = 126 ∧
        nextIs (exec .decode (scene 3 0 [0x82, 0x7E, 0x00]))
          (outcome (scene 3 0 [0x82, 0x7E, 0x00]) 0x00003102 (headerWord (headerOf 0x82 0x7E) false) 0 0 4) = true) ∧
      (HeaderAccepted (scene 3 0 [0x82, 0x7F, 0, 0, 0, 0, 0, 1, 0]) (headerOf 0x82 0x7F) ∧ (headerOf 0x82 0x7F).len7 = 127 ∧
        nextIs (exec .decode (scene 3 0 [0x82, 0x7F, 0, 0, 0, 0, 0, 1, 0]))
          (outcome (scene 3 0 [0x82, 0x7F, 0, 0, 0, 0, 0, 1, 0]) 0x00003102 (headerWord (headerOf 0x82 0x7F) false) 0 0 10)
            = true) ∧
      ends (exec .decode (scene 3 0 [0x82, 0x7F, 0, 0, 0, 0, 0, 1, 0, 0])) (fun t =>
        t.rPaylenLo == 65536 && frameLV t.rFrame) = true := by
  and_intros <;> decide +kernel

theorem witness_LengthMsbIsRejected :
    RegionsPass (scene 3 0 [0x82, 0x7F, 0x80, 0, 0, 0, 0, 0, 0, 0]) ∧
      FirstBytes (scene 3 0 [0x82, 0x7F, 0x80, 0, 0, 0, 0, 0, 0, 0]) 0x82 0x7F ∧
      HeaderAccepted (scene 3 0 [0x82, 0x7F, 0x80, 0, 0, 0, 0, 0, 0, 0]) (headerOf 0x82 0x7F) ∧ (headerOf 0x82 0x7F).len7 = 127 ∧
      LengthPresent (scene 3 0 [0x82, 0x7F, 0x80, 0, 0, 0, 0, 0, 0, 0]) (headerOf 0x82 0x7F) [0x80, 0, 0, 0, 0, 0, 0, 0]
        0x8000000000000000 ∧
      nextIs (exec .decode (scene 3 0 [0x82, 0x7F, 0x80, 0, 0, 0, 0, 0, 0, 0]))
        (outcome (scene 3 0 [0x82, 0x7F, 0x80, 0, 0, 0, 0, 0, 0, 0]) 0x00000603 (headerWord (headerOf 0x82 0x7F) true)
          0x8000000000000000 0 0) = true := by
  simp only [LengthPresent, BytesAt]
  and_intros <;> decide +kernel

theorem witness_NonMinimalLengthIsRejected :
    (RegionsPass (scene 3 0 [0x82, 0x7E, 0x00, 0x7D]) ∧ FirstBytes (scene 3 0 [0x82, 0x7E, 0x00, 0x7D]) 0x82 0x7E ∧
        HeaderAccepted (scene 3 0 [0x82, 0x7E, 0x00, 0x7D]) (headerOf 0x82 0x7E) ∧
        LengthPresent (scene 3 0 [0x82, 0x7E, 0x00, 0x7D]) (headerOf 0x82 0x7E) [0x00, 0x7D] 125 ∧ ctrlStrictLen (scene 3 0 [0x82, 0x7E, 0x00, 0x7D]).ctrl = true ∧
        nextIs (exec .decode (scene 3 0 [0x82, 0x7E, 0x00, 0x7D]))
          (outcome (scene 3 0 [0x82, 0x7E, 0x00, 0x7D]) 0x00000703 (headerWord (headerOf 0x82 0x7E) true) 125 0 0) = true) ∧
      (LengthPresent (scene 3 0 [0x82, 0x7F, 0, 0, 0, 0, 0, 0, 0xFF, 0xFF]) (headerOf 0x82 0x7F) [0, 0, 0, 0, 0, 0, 0xFF, 0xFF] 65535 ∧
        nextIs (exec .decode (scene 3 0 [0x82, 0x7F, 0, 0, 0, 0, 0, 0, 0xFF, 0xFF]))
          (outcome (scene 3 0 [0x82, 0x7F, 0, 0, 0, 0, 0, 0, 0xFF, 0xFF]) 0x00000703 (headerWord (headerOf 0x82 0x7F) true) 65535 0 0)
            = true) ∧
      ctrlStrictLen (scene 1 0 [0x82, 0x7E, 0x00, 0x7D]).ctrl = false ∧
      ends (exec .decode (scene 1 0 [0x82, 0x7E, 0x00, 0x7D])) (fun t => t.status == 0x00003302) = true := by
  simp only [LengthPresent, BytesAt]
  and_intros <;> decide +kernel

theorem witness_DecodeNeedsTheMaskKey :
    (RegionsPass (scene 2 0 [0x81, 0x85, 0x37, 0xFA, 0x21]) ∧ FirstBytes (scene 2 0 [0x81, 0x85, 0x37, 0xFA, 0x21]) 0x81 0x85) ∧
      HeaderAccepted (scene 2 0 [0x81, 0x85, 0x37, 0xFA, 0x21]) (headerOf 0x81 0x85) ∧
      LengthPresent (scene 2 0 [0x81, 0x85, 0x37, 0xFA, 0x21]) (headerOf 0x81 0x85) [] 5 ∧
      LengthAccepted (scene 2 0 [0x81, 0x85, 0x37, 0xFA, 0x21]) (headerOf 0x81 0x85) 5 ∧ (headerOf 0x81 0x85).masked = true ∧
      (scene 2 0 [0x81, 0x85, 0x37, 0xFA, 0x21]).srcLen.toNat < frameHdrLen (headerOf 0x81 0x85) ∧
      nextIs (exec .decode (scene 2 0 [0x81, 0x85, 0x37, 0xFA, 0x21]))
        (outcome (scene 2 0 [0x81, 0x85, 0x37, 0xFA, 0x21]) 0x00003202 (headerWord (headerOf 0x81 0x85) true) 5 0 6) = true := by
  simp only [LengthPresent, BytesAt]
  and_intros <;> decide +kernel

theorem witness_DecodeNeedsTheWholeFrame :
    (RegionsPass (scene 2 0 [0x81, 0x85, 0x37, 0xFA, 0x21, 0x3D]) ∧
        FirstBytes (scene 2 0 [0x81, 0x85, 0x37, 0xFA, 0x21, 0x3D]) 0x81 0x85 ∧
        HeaderAccepted (scene 2 0 [0x81, 0x85, 0x37, 0xFA, 0x21, 0x3D]) (headerOf 0x81 0x85) ∧
        LengthPresent (scene 2 0 [0x81, 0x85, 0x37, 0xFA, 0x21, 0x3D]) (headerOf 0x81 0x85) [] 5 ∧
        LengthAccepted (scene 2 0 [0x81, 0x85, 0x37, 0xFA, 0x21, 0x3D]) (headerOf 0x81 0x85) 5 ∧
        BytesAt (scene 2 0 [0x81, 0x85, 0x37, 0xFA, 0x21, 0x3D]).buf 2 [0x37, 0xFA, 0x21, 0x3D] ∧
        frameHdrLen (headerOf 0x81 0x85) = (scene 2 0 [0x81, 0x85, 0x37, 0xFA, 0x21, 0x3D]).srcLen.toNat ∧
        nextIs (exec .decode (scene 2 0 [0x81, 0x85, 0x37, 0xFA, 0x21, 0x3D]))
          (outcome (scene 2 0 [0x81, 0x85, 0x37, 0xFA, 0x21, 0x3D]) 0x00003302 (headerWord (headerOf 0x81 0x85) true) 5 0 11) = true) ∧
      (FirstBytes (scene 3 0 [0x82, 0x7F, 0, 0, 0, 1, 0, 0, 0, 0]) 0x82 0x7F ∧ HeaderAccepted (scene 3 0 [0x82, 0x7F, 0, 0, 0, 1, 0, 0, 0, 0]) (headerOf 0x82 0x7F) ∧
        LengthPresent (scene 3 0 [0x82, 0x7F, 0, 0, 0, 1, 0, 0, 0, 0]) (headerOf 0x82 0x7F) [0, 0, 0, 1, 0, 0, 0, 0] 0x100000000 ∧
        LengthAccepted (scene 3 0 [0x82, 0x7F, 0, 0, 0, 1, 0, 0, 0, 0]) (headerOf 0x82 0x7F) 0x100000000 ∧
        (headerOf 0x82 0x7F).masked = false ∧ RegionsPass { (scene 3 0 [0x82, 0x7F, 0, 0, 0, 1, 0, 0, 0, 0]) with srcLen := 0x400, dstAddr := 0 } ∧
        ends (exec .decode { (scene 3 0 [0x82, 0x7F, 0, 0, 0, 1, 0, 0, 0, 0]) with srcLen := 0x400, dstAddr := 0 }) (fun t =>
          t.status == 0x00003302 && t.rNeedHi == 1 && t.rNeedLo == 10) = true) := by
  simp only [LengthPresent, BytesAt]
  and_intros <;> decide +kernel

theorem witness_DecodeNeedsRoom :
    RegionsPass (scene 3 4 ([0x81, 0x05] ++ hello)) ∧ FirstBytes (scene 3 4 ([0x81, 0x05] ++ hello)) 0x81 0x05 ∧
      HeaderAccepted (scene 3 4 ([0x81, 0x05] ++ hello)) (headerOf 0x81 0x05) ∧
      LengthPresent (scene 3 4 ([0x81, 0x05] ++ hello)) (headerOf 0x81 0x05) [] 5 ∧ LengthAccepted (scene 3 4 ([0x81, 0x05] ++ hello)) (headerOf 0x81 0x05) 5 ∧
      (headerOf 0x81 0x05).masked = false ∧ frameHdrLen (headerOf 0x81 0x05) + 5 = (scene 3 4 ([0x81, 0x05] ++ hello)).srcLen.toNat ∧
      (scene 3 4 ([0x81, 0x05] ++ hello)).dstCap.toNat = 4 ∧
      nextIs (exec .decode (scene 3 4 ([0x81, 0x05] ++ hello)))
        (outcome (scene 3 4 ([0x81, 0x05] ++ hello)) 0x00002405 (headerWord (headerOf 0x81 0x05) true) 5 0 0) = true := by
  simp only [LengthPresent, BytesAt]
  and_intros <;> decide +kernel

/-- The whole frame of "Hello", masked, in loopback role, with a destination of exactly five bytes. -/
theorem witness_WholeFrame_masked :
    WholeFrame (scene 2 5 maskedHello) ⟨0x1, 0, true, true, 5⟩ [] (some 0x37FA213D) [0x7F, 0x9F, 0x4D, 0x51, 0x58] :=
  ⟨by decide +kernel, by decide +kernel, by decide +kernel, by decide +kernel, by decide +kernel, by decide +kernel,
    by decide +kernel, by decide +kernel, by unfold BytesAt; decide +kernel⟩

/-- An empty frame of each accepted opcode, for `DecodeDeliversThePayload` and `AcceptedFrameRowsComplete`. -/
theorem witness_WholeFrame_empty (op : BitVec 4) (h : GoodOpcode op) :
    WholeFrame (scene 3 0 [byte0Of op true 0, 0x00]) ⟨op, 0, true, false, 0⟩ [] none [] := by
  rcases h with rfl | rfl | rfl | rfl | rfl | rfl <;>
    exact ⟨by decide +kernel, by decide +kernel, by decide +kernel, by decide +kernel, by decide +kernel, by decide +kernel,
      by decide +kernel, by decide +kernel, by unfold BytesAt; decide +kernel⟩

theorem witness_DecodeDeliversThePayload :
    nextIs (exec .decode (scene 2 5 maskedHello)) (decoded (scene 2 5 maskedHello) ⟨0x1, 0, true, true, 5⟩ []
      (some 0x37FA213D) [0x7F, 0x9F, 0x4D, 0x51, 0x58]) = true := by
  decide +kernel

theorem witness_ReservedFrameOpcodesAreRefused_rsv :
    RegionsPass (scene 3 0 [0x7F, 0x00]) ∧ FirstBytes (scene 3 0 [0x8F, 0x00]) (byte0Of 0xF true 0) 0x00 ∧
      nextIs (exec (.frameReservedF false 7) (scene 3 0 [0x7F, 0x00])) (outcome (scene 3 0 [0x7F, 0x00]) 0x00000103
        (headerWord (headerOf (byte0Of 0xF false 7) 0x00) false) 0 0 0) = true ∧
      nextIs (exec .decode (scene 3 0 [0x8F, 0x00])) (outcome (scene 3 0 [0x8F, 0x00]) 0x00000203
        (headerWord (headerOf (byte0Of 0xF true 0) 0x00) false) 0 0 0) = true := by
  and_intros <;> decide +kernel

theorem witness_ReservedFrameOpcodesAreRefused :
    (RegionsPass (scene 3 0 [0x83, 0x00]) ∧ 2 ≤ (scene 3 0 [0x83, 0x00]).srcLen.toNat ∧
        (scene 3 0 [0x83, 0x00]).buf.read ((scene 3 0 [0x83, 0x00]).srcAddr.toNat + 1) = some 0x00) ∧
      (3 ≤ (3 : BitVec 4).toNat ∧ (7 : BitVec 4).toNat ≤ 7 ∧ 11 ≤ (0xB : BitVec 4).toNat) ∧
      nextIs (exec (.frameReserved3 true 0) (scene 3 0 [0x83, 0x00])) (outcome (scene 3 0 [0x83, 0x00]) 0x00000203
        (headerWord (headerOf (byte0Of 0x3 true 0) 0x00) false) 0 0 0) = true := by
  and_intros <;> decide +kernel

theorem witness_PartialReadResilience :
    (∃ t, exec .decode (scene 2 5 maskedHello) = .next t ∧ (t.status == 0x00000001 && t.rConsumed == 11) = true) ∧
      (∃ t, exec .decode { scene 2 5 maskedHello with srcLen := 10 } = .next t ∧ (t.status == 0x00003302) = true) ∧
      (∃ t, exec .decode { scene 2 5 maskedHello with srcLen := 12 } = .next t ∧ (t.status == 0x00000001 && t.rConsumed == 11) = true) := 
    ⟨ends_next (p := fun t => (t.status == 0x00000001 && t.rConsumed == 11)) (by decide +kernel), ends_next (p := fun t => (t.status == 0x00003302)) (by decide +kernel), ends_next (p := fun t => (t.status == 0x00000001 && t.rConsumed == 11)) (by decide +kernel)⟩

/-! ### ENCODE -/

theorem witness_EncodeRefusals :
    (RegionsPass (scene 3 0x100 hello) ∧ argumentStatus (ctrlClient (scene 3 0x100 hello).ctrl) 0x3 true true (scene 3 0x100 hello).srcLen.toNat = some 0x00002505 ∧
        nextIs (exec (.encode 0x3 true true) (scene 3 0x100 hello)) (outcome (scene 3 0x100 hello) 0x00002505 0 0 0 0) = true) ∧
      (RegionsPass (scene 3 0x100 hello) ∧ argumentStatus (ctrlClient (scene 3 0x100 hello).ctrl) 0x8 false true (scene 3 0x100 hello).srcLen.toNat = some 0x00002605 ∧
        nextIs (exec (.encode 0x8 false true) (scene 3 0x100 hello)) (outcome (scene 3 0x100 hello) 0x00002605 0 0 0 0) = true) ∧
      (RegionsPass (scene 3 0x100 (List.replicate 126 0)) ∧ argumentStatus (ctrlClient (scene 3 0x100 (List.replicate 126 0)).ctrl) 0x9 true true (scene 3 0x100 (List.replicate 126 0)).srcLen.toNat = some 0x00002705 ∧
        nextIs (exec (.encode 0x9 true true) (scene 3 0x100 (List.replicate 126 0))) (outcome (scene 3 0x100 (List.replicate 126 0)) 0x00002705 0 0 0 0) = true) ∧
      (RegionsPass (scene 3 0x100 hello) ∧ argumentStatus (ctrlClient (scene 3 0x100 hello).ctrl) 0x1 true false (scene 3 0x100 hello).srcLen.toNat = some 0x00002805 ∧
        nextIs (exec (.encode 0x1 true false) (scene 3 0x100 hello)) (outcome (scene 3 0x100 hello) 0x00002805 0 0 0 0) = true) ∧
      (argumentStatus (ctrlClient (scene 2 6 hello).ctrl) 0x1 true false 5 = none ∧ lawHdrLen 5 false + 5 = 7 ∧
        nextIs (exec (.encode 0x1 true false) (scene 2 6 hello)) (outcome (scene 2 6 hello) 0x00002405 0 0 0 0) = true) := by
  and_intros <;> decide +kernel

theorem witness_EncodeWritesTheFrame :
    RegionsPass (scene 3 11 hello) ∧ argumentStatus (ctrlClient (scene 3 11 hello).ctrl) 0x1 true true hello.length = none ∧
      hello.length = (scene 3 11 hello).srcLen.toNat ∧ BytesAt (scene 3 11 hello).buf 0 hello ∧
      lawHdrLen hello.length true + hello.length = (scene 3 11 hello).dstCap.toNat ∧
      ends (exec (.encode 0x1 true true) (scene 3 11 hello)) (fun t => t.status == 0x00000001) = true := by
  simp only [BytesAt]
  and_intros <;> decide +kernel

theorem witness_EncodedHeaderLengthLaw :
    (∃ t, exec (.encode 0x1 true true) (scene 3 11 hello) = .next t ∧ (t.status == 0x00000001) = true) ∧
      (∃ t, exec (.encode 0x2 true false) (scene 2 0x100 (List.replicate 126 0)) = .next t ∧ (t.status == 0x00000001 && t.rConsumed == 130) = true) := 
    ⟨ends_next (p := fun t => (t.status == 0x00000001)) (by decide +kernel), ends_next (p := fun t => (t.status == 0x00000001 && t.rConsumed == 130)) (by decide +kernel)⟩

theorem witness_EncodedLengthIsMinimalAndBigEndian :
    beValue [1, 2] = 258 ∧ bigEndian [1, 2] = 258 ∧ beBytes 258 2 = [1, 2] ∧
      (encodeExt 125 = [] ∧ encodeExt 126 = [0, 126] ∧ encodeExt 65535 = [0xFF, 0xFF] ∧
      encodeExt 65536 = [0, 0, 0, 0, 0, 1, 0, 0] ∧ (0xFFFFFFFF : Nat) < 0x100000000) := by
  and_intros <;> decide +kernel

/-- Program P2 in one move: what ENCODE wrote, decoded in place of the bytes it came from. -/
theorem witness_RoundTripInLoopback :
    ∃ t, exec (.encode 0x1 true true) { scene 6 11 hello with maskKey := 0x37FA213D } = .next t ∧
      (t.status == 0x00000001 && t.rConsumed == 11 &&
        decide (RegionsPass { t with srcAddr := 512, srcLen := 11, dstAddr := 0, dstCap := 5 }) &&
        ends (exec .decode { t with srcAddr := 512, srcLen := 11, dstAddr := 0, dstCap := 5 }) (fun u =>
          u.status == 0x00000001 && u.rFrame == t.rFrame && u.buf.read 4 == some 0x6F)) = true :=
  ends_next (p := fun t => t.status == 0x00000001 && t.rConsumed == 11 &&
    decide (RegionsPass { t with srcAddr := 512, srcLen := 11, dstAddr := 0, dstCap := 5 }) &&
    ends (exec .decode { t with srcAddr := 512, srcLen := 11, dstAddr := 0, dstCap := 5 }) (fun u =>
      u.status == 0x00000001 && u.rFrame == t.rFrame && u.buf.read 4 == some 0x6F)) (by decide +kernel)

/-- In client role ENCODE with MSK = 0 and DECODE of an unmasked frame both end. -/
theorem witness_RoundTripInLoopback_client :
    ctrlClient 3 = true ∧ ends (exec (.encode 0x1 true false) (scene 3 11 hello)) (fun t => t.status == 0x00002805) = true ∧
      ends (exec .decode (scene 3 0 [0x82, 0x00])) (fun t => t.status == 0x00000001) = true := by
  decide +kernel

/-! ### MASK -/

theorem witness_MaskStoresTheKernel :
    (MaskRegionsPass (scene 3 4 hello) ∧ (scene 3 4 hello).dstCap.toNat < (scene 3 4 hello).srcLen.toNat ∧
        nextIs (exec .mask (scene 3 4 hello)) (outcome (scene 3 4 hello) 0x00002405 0 0 0 0) = true) ∧
      (MaskRegionsPass { scene 3 5 hello with dstAddr := 0 } ∧ hello.length = (scene 3 5 hello).srcLen.toNat ∧
        BytesAt (scene 3 5 hello).buf 0 hello ∧ (scene 3 5 hello).srcLen.toNat ≤ (scene 3 5 hello).dstCap.toNat) := by
  simp only [BytesAt]
  and_intros <;> decide +kernel

/-- MASK in place, then once more; and MASK into a second region, then of that region. -/
theorem witness_MaskTwiceRestores :
    (∃ t, exec .mask { scene 3 5 hello with dstAddr := 0, maskKey := 0x37FA213D } = .next t ∧
      (t.status == 0x00000001 && t.srcAddr == t.dstAddr && ends (exec .mask t) (fun u =>
        u.status == 0x00000001 && u.buf == Memory.writeBytes [] 0 hello)) = true) ∧
    ∃ t, exec .mask { scene 3 5 hello with maskKey := 0x37FA213D } = .next t ∧
      (t.status == 0x00000001 && ends (exec .mask { t with srcAddr := 512, dstAddr := 600 }) (fun u =>
        u.status == 0x00000001 && u.buf.read 604 == some 0x6F)) = true :=
  ⟨ends_next (p := fun t => t.status == 0x00000001 && t.srcAddr == t.dstAddr && ends (exec .mask t) (fun u =>
      u.status == 0x00000001 && u.buf == Memory.writeBytes [] 0 hello)) (by decide +kernel),
    ends_next (p := fun t => t.status == 0x00000001 && ends (exec .mask { t with srcAddr := 512, dstAddr := 600 }) (fun u =>
      u.status == 0x00000001 && u.buf.read 604 == some 0x6F)) (by decide +kernel)⟩

/-- The codec and MASK on "Hello" with the key 0x37FA213D. -/
theorem witness_MaskAgreesWithTheCodec :
    ((∃ t, exec (.encode 0x1 true true) { scene 7 11 hello with maskKey := 0x37FA213D } = .next t ∧
        (t.status == 0x00000001 && t.maskKey == 0x37FA213D && t.buf.read 518 == some 0x7F) = true) ∧
      ∃ u, exec .mask { scene 7 11 hello with maskKey := 0x37FA213D } = .next u ∧
        (u.status == 0x00000001 && u.buf.read 512 == some 0x7F) = true) ∧
    (∃ t, exec .decode (scene 2 5 maskedHello) = .next t ∧
        (t.status == 0x00000001 && t.rFrame.getLsbD 8 && t.rPaylenLo == 5 && t.buf.read 512 == some 0x48) = true) ∧
      ∃ u, exec .mask { scene 2 5 maskedHello with srcAddr := 6, srcLen := 5, maskKey := 0x37FA213D } = .next u ∧
        (u.status == 0x00000001 && u.buf.read 512 == some 0x48) = true :=
  ⟨⟨ends_next (p := fun t => t.status == 0x00000001 && t.maskKey == 0x37FA213D && t.buf.read 518 == some 0x7F)
        (by decide +kernel),
      ends_next (p := fun u => u.status == 0x00000001 && u.buf.read 512 == some 0x7F) (by decide +kernel)⟩,
    ends_next (p := fun t => t.status == 0x00000001 && t.rFrame.getLsbD 8 && t.rPaylenLo == 5 && t.buf.read 512 == some 0x48)
        (by decide +kernel),
      ends_next (p := fun u => u.status == 0x00000001 && u.buf.read 512 == some 0x48) (by decide +kernel)⟩

/-! ### VALIDATE -/

/-- A header line: name, ": ", value. -/
def line (name value : List Byte) : List Byte := [0x0D, 0x0A] ++ name ++ [0x3A, 0x20] ++ value

/-- A block that is accepted for the expected value "A". -/
def goodBlock : List Byte :=
  txtStatus ++ line txtUpgrade txtWebsocket ++ line txtConnection txtUpgrade ++ line txtAccept [0x41]

/-- The source region is the block with its terminator, the auxiliary region "A". -/
def judged (b : List Byte) : State := answer (b ++ headerEnd) [0x41]

theorem witness_ValidateNeedsAnExpectedValue :
    SrcFits (answer [0] []) ∧ AuxFits (answer [0] []) ∧ (answer [0] []).auxLen.toNat = 0 ∧
      nextIs (exec .validate (answer [0] [])) (outcome (answer [0] []) 0x00002905 0 0 0 0) = true := by
  and_intros <;> decide +kernel

theorem witness_ValidateNeedsTheHeaderEnd :
    ValidateRuns (answer [0x0D, 0x0A, 0x0D] [0x41]) ∧ (answer [0x0D, 0x0A, 0x0D] [0x41]).srcLen.toNat = 3 ∧
      BytesAt (answer [0x0D, 0x0A, 0x0D] [0x41]).buf 0 [0x0D, 0x0A, 0x0D] ∧
      nextIs (exec .validate (answer [0x0D, 0x0A, 0x0D] [0x41]))
        (outcome (answer [0x0D, 0x0A, 0x0D] [0x41]) 0x00003402 0 0 0 4) = true := by
  simp only [BytesAt]
  and_intros <;> decide +kernel

/-- The same at the smallest source that could hold a terminator and one byte more, with the hypothesis as it is stated. -/
theorem witness_ValidateNeedsTheHeaderEnd_five :
    (∀ i, i + 4 ≤ ([0x0D, 0x0A, 0x0D, 0x41, 0x0A] : List Byte).length →
        (([0x0D, 0x0A, 0x0D, 0x41, 0x0A] : List Byte).drop i).take 4 ≠ [0x0D, 0x0A, 0x0D, 0x0A]) ∧
      ends (exec .validate (answer [0x0D, 0x0A, 0x0D, 0x41, 0x0A] [0x41])) (fun t => t.rNeedLo == 6) = true := by
  refine ⟨fun i hi => ?_, by decide +kernel⟩
  have h : i = 0 ∨ i = 1 := by simp only [List.length_cons, List.length_nil] at hi; omega
  rcases h with rfl | rfl <;> decide

theorem witness_ValidateAcceptsTheUpgrade :
    ValidateRuns (judged goodBlock) ∧ BlockPresent (judged goodBlock) goodBlock ∧
      statusLineOk ((splitLines goodBlock).headD []) = true ∧ valuesOf txtUpgrade (blockFields goodBlock) = [txtWebsocket] ∧
      ieq txtWebsocket txtWebsocket = true ∧ valuesOf txtConnection (blockFields goodBlock) = [txtUpgrade] ∧
      ieq txtUpgrade txtUpgrade = true ∧ valuesOf txtAccept (blockFields goodBlock) = [[0x41]] ∧
      (judged goodBlock).auxLen.toNat = 1 ∧ BytesAt (judged goodBlock).buf (judged goodBlock).auxAddr.toNat [0x41] ∧
      nextIs (exec .validate (judged goodBlock)) (outcome (judged goodBlock) 0x00000001 0 0 (goodBlock.length + 4) 0)
        = true := by
  simp only [BlockPresent, BytesAt]
  and_intros <;> decide +kernel

theorem witness_ValidateReportsTheFirstFailure_status :
    ValidateRuns (judged [0x48]) ∧
      BlockPresent (judged [0x48]) [0x48] ∧
      nextIs (exec .validate (judged [0x48]))
        (outcome (judged [0x48]) 0x00001004 0 0 ([0x48].length + 4) 0) = true := by
  simp only [BlockPresent, BytesAt]
  and_intros <;> decide +kernel

theorem witness_ValidateReportsTheFirstFailure_duplicate :
    ValidateRuns (judged (goodBlock ++ line txtAccept [0x41])) ∧
      BlockPresent (judged (goodBlock ++ line txtAccept [0x41])) (goodBlock ++ line txtAccept [0x41]) ∧
      nextIs (exec .validate (judged (goodBlock ++ line txtAccept [0x41])))
        (outcome (judged (goodBlock ++ line txtAccept [0x41])) 0x00001104 0 0 ((goodBlock ++ line txtAccept [0x41]).length + 4) 0) = true := by
  simp only [BlockPresent, BytesAt]
  and_intros <;> decide +kernel

theorem witness_ValidateReportsTheFirstFailure_upgrade :
    ValidateRuns (judged txtStatus) ∧
      BlockPresent (judged txtStatus) txtStatus ∧
      nextIs (exec .validate (judged txtStatus))
        (outcome (judged txtStatus) 0x00001204 0 0 (txtStatus.length + 4) 0) = true := by
  simp only [BlockPresent, BytesAt]
  and_intros <;> decide +kernel

theorem witness_ValidateReportsTheFirstFailure_connection :
    ValidateRuns (judged (txtStatus ++ line txtUpgrade txtWebsocket)) ∧
      BlockPresent (judged (txtStatus ++ line txtUpgrade txtWebsocket)) (txtStatus ++ line txtUpgrade txtWebsocket) ∧
      nextIs (exec .validate (judged (txtStatus ++ line txtUpgrade txtWebsocket)))
        (outcome (judged (txtStatus ++ line txtUpgrade txtWebsocket)) 0x00001304 0 0 ((txtStatus ++ line txtUpgrade txtWebsocket).length + 4) 0) = true := by
  simp only [BlockPresent, BytesAt]
  and_intros <;> decide +kernel

theorem witness_ValidateReportsTheFirstFailure_missing :
    ValidateRuns (judged (txtStatus ++ line txtUpgrade txtWebsocket ++ line txtConnection txtUpgrade)) ∧
      BlockPresent (judged (txtStatus ++ line txtUpgrade txtWebsocket ++ line txtConnection txtUpgrade)) (txtStatus ++ line txtUpgrade txtWebsocket ++ line txtConnection txtUpgrade) ∧
      nextIs (exec .validate (judged (txtStatus ++ line txtUpgrade txtWebsocket ++ line txtConnection txtUpgrade)))
        (outcome (judged (txtStatus ++ line txtUpgrade txtWebsocket ++ line txtConnection txtUpgrade)) 0x00001404 0 0 ((txtStatus ++ line txtUpgrade txtWebsocket ++ line txtConnection txtUpgrade).length + 4) 0) = true := by
  simp only [BlockPresent, BytesAt]
  and_intros <;> decide +kernel

theorem witness_ValidateReportsTheFirstFailure_mismatch :
    ValidateRuns (judged (txtStatus ++ line txtUpgrade txtWebsocket ++ line txtConnection txtUpgrade ++ line txtAccept [0x61])) ∧
      BlockPresent (judged (txtStatus ++ line txtUpgrade txtWebsocket ++ line txtConnection txtUpgrade ++ line txtAccept [0x61])) (txtStatus ++ line txtUpgrade txtWebsocket ++ line txtConnection txtUpgrade ++ line txtAccept [0x61]) ∧
      nextIs (exec .validate (judged (txtStatus ++ line txtUpgrade txtWebsocket ++ line txtConnection txtUpgrade ++ line txtAccept [0x61])))
        (outcome (judged (txtStatus ++ line txtUpgrade txtWebsocket ++ line txtConnection txtUpgrade ++ line txtAccept [0x61])) 0x00001504 0 0 ((txtStatus ++ line txtUpgrade txtWebsocket ++ line txtConnection txtUpgrade ++ line txtAccept [0x61]).length + 4) 0) = true := by
  simp only [BlockPresent, BytesAt]
  and_intros <;> decide +kernel

/-- A line with two colons and spaces around its value: name before the first ':', value trimmed of SP and HT, a name with a
space before the colon kept; and a line with no ':'. -/
theorem witness_LinesAndFieldsOfTheBlock :
    (0x3A : Byte) ∉ ([0x41, 0x20] : List Byte) ∧ (0x3A : Byte) ∉ ([0x41] : List Byte) ∧
      headerField [0x41, 0x20, 0x3A, 0x20, 0x09, 0x3A, 0x20, 0x62, 0x09] = some ([0x41, 0x20], [0x3A, 0x20, 0x62]) ∧
      headerField [0x41, 0x3A, 0x20, 0x09] = some ([0x41], []) ∧ headerField [0x41] = none ∧
      (lower 0x41 = 0x61 ∧ lower 0x5A = 0x7A ∧ lower 0x40 = 0x40 ∧ lower 0x5B = 0x5B) ∧
      ieq [0x55, 0x50] [0x75, 0x70] = true ∧ ieq [0x55] [0x55, 0x50] = false := by
  decide +kernel

/-- A second state with the same block and auxiliary bytes: another CTRL, MASKKEY, destination, SRC_ADDR and AUX_ADDR. -/
def otherJudged : State :=
  { State.reset with
    ctrl := 6, maskKey := 0x01020304, dstAddr := 7, dstCap := 9, srcAddr := 100, srcLen := 300, auxAddr := 20, auxLen := 1
    buf := (Memory.writeBytes [] 100 (txtStatus ++ headerEnd ++ hello)).writeBytes 20 [0x41] }

theorem witness_ValidateDependsOnTheBlockOnly :
    SrcFits (judged txtStatus) ∧ SrcFits otherJudged ∧ AuxFits (judged txtStatus) ∧ AuxFits otherJudged ∧
      BlockPresent (judged txtStatus) txtStatus ∧ BlockPresent otherJudged txtStatus ∧
      otherJudged.auxLen = (judged txtStatus).auxLen ∧ otherJudged.buf.read 20 = (judged txtStatus).buf.read 512 ∧
      ends (exec .validate (judged txtStatus)) (fun t => t.status == 0x00001204 && t.rConsumed == 16) = true ∧
      ends (exec .validate otherJudged) (fun t => t.status == 0x00001204 && t.rConsumed == 16) = true := by
  simp only [BlockPresent, BytesAt]
  and_intros <;> decide +kernel

/-! ### The host's side and the invariants -/

theorem witness_ResetLeaves :
    (asked .reset (scene 2 5 maskedHello)).pending = .reset :: [] ∧
      ends (step (asked .reset (scene 2 5 maskedHello))) (fun t => t == State.reset) = true := by
  and_intros <;> decide +kernel

theorem witness_RegisterWindow :
    (asked (.regRead 0xFC 32) State.reset).pending = .regRead 0xFC 32 :: [] ∧ 0xFC % 4 = 0 ∧ 0xFC < 0x100 ∧
      (asked (.regWrite 0x2C 32 0xFFFFFFFF) State.reset).pending = .regWrite 0x2C 32 0xFFFFFFFF :: [] ∧
      (0x2C : Nat) ≠ 0x08 ∧
      ends (step (asked (.regRead 0x00 32) State.reset)) (fun t => t.reply == .word 0x57534631) = true ∧
      ends (step (asked (.regWrite 0x14 32 0xFFFFFFFF) State.reset)) (fun t => t.srcLen == 0xFFFFFFFF) = true := by
  and_intros <;> decide +kernel

theorem witness_BadRegisterAccessIsRefused :
    ((8 : Nat) ≠ 32 ∧ 0x02 % 4 ≠ 0 ∧ 0x100 ≤ 0x100) ∧
      refusalIs (step (asked (.regRead 0x100 32) State.reset)) (.registerAccess 0x100 32) = true ∧
      refusalIs (step (asked (.regWrite 0x02 32 0) State.reset)) (.registerAccess 0x02 32) = true ∧
      refusalIs (step (asked (.regWrite 0x04 8 0) State.reset)) (.registerAccess 0x04 8) = true := by
  and_intros <;> decide +kernel

theorem witness_HostBufferAccess :
    (1023 < State.reset.cfg.bufSize ∧ (scene 3 0 hello).buf.read 4 = some 0x6F ∧
        ends (serve (.bufRead 4) (scene 3 0 hello)) (fun t => t.reply == .byte 0x6F) = true) ∧
      (State.reset.cfg.bufSize ≤ 1024 ∧ refusalIs (serve (.bufRead 1024) State.reset) (.bufferAddress 1024) = true) ∧
      (1020 % 4 = 0 ∧ 1020 + 4 ≤ State.reset.cfg.bufSize ∧
        ends (serve (.bufReadWide 0) (scene 3 0 hello)) (fun t => t.reply == .word 0x6C6C6548) = true) ∧
      (1024 % 4 = 0 ∧ State.reset.cfg.bufSize < 1024 + 4) ∧
      (1021 % 4 ≠ 0 ∧ refusalIs (serve (.bufWriteWide 1021 0) State.reset) (.bufferMisaligned 1021) = true) := by
  and_intros <;> decide +kernel

theorem witness_UnwrittenReadsFault_host :
    5 < (scene 3 0 hello).cfg.bufSize ∧ (scene 3 0 hello).buf.read 5 = none ∧
      faultIs (serve (.bufRead 5) (scene 3 0 hello)) (.unwrittenByte 5) = true := by
  and_intros <;> decide +kernel

theorem witness_UnwrittenReadsFault_host_wide :
    4 % 4 = 0 ∧ 4 + 4 ≤ (scene 3 0 hello).cfg.bufSize ∧ UnwrittenAfter (scene 3 0 hello).buf 4 4 [0x6F] ∧
      faultIs (serve (.bufReadWide 4) (scene 3 0 hello)) (.unwrittenByte 5) = true := by
  simp only [UnwrittenAfter, BytesAt]
  and_intros <;> decide +kernel

theorem witness_UnwrittenReadsFault_byte0 :
    RegionsPass { State.reset with srcLen := 2 } ∧ UnwrittenAfter ({ State.reset with srcLen := 2 } : State).buf 0 2 [] ∧
      faultIs (exec .decode { State.reset with srcLen := 2 }) (.unwrittenByte 0) = true := by
  simp only [UnwrittenAfter, BytesAt]
  and_intros <;> decide +kernel

theorem witness_UnwrittenReadsFault_byte1 :
    RegionsPass { scene 3 0 [0x82] with srcLen := 2 } ∧ UnwrittenAfter ({ scene 3 0 [0x82] with srcLen := 2 } : State).buf 0 2 [0x82] ∧
      faultIs (exec .decode { scene 3 0 [0x82] with srcLen := 2 }) (.unwrittenByte 1) = true := by
  simp only [UnwrittenAfter, BytesAt]
  and_intros <;> decide +kernel

theorem witness_UnwrittenReadsFault_length :
    RegionsPass { scene 3 0 [0x82, 0x7E, 0x01] with srcLen := 4 } ∧ FirstBytes { scene 3 0 [0x82, 0x7E, 0x01] with srcLen := 4 } 0x82 0x7E ∧ HeaderAccepted { scene 3 0 [0x82, 0x7E, 0x01] with srcLen := 4 } (headerOf 0x82 0x7E) ∧
      2 + extLen (headerOf 0x82 0x7E).len7 = ({ scene 3 0 [0x82, 0x7E, 0x01] with srcLen := 4 } : State).srcLen.toNat ∧ UnwrittenAfter ({ scene 3 0 [0x82, 0x7E, 0x01] with srcLen := 4 } : State).buf 2 2 [0x01] ∧
      faultIs (exec .decode { scene 3 0 [0x82, 0x7E, 0x01] with srcLen := 4 }) (.unwrittenByte 3) = true := by
  simp only [UnwrittenAfter, BytesAt]
  and_intros <;> decide +kernel

theorem witness_UnwrittenReadsFault_key :
    RegionsPass { scene 2 0 [0x81, 0x85, 0x37, 0xFA, 0x21] with srcLen := 6 } ∧ FirstBytes { scene 2 0 [0x81, 0x85, 0x37, 0xFA, 0x21] with srcLen := 6 } 0x81 0x85 ∧ HeaderAccepted { scene 2 0 [0x81, 0x85, 0x37, 0xFA, 0x21] with srcLen := 6 } (headerOf 0x81 0x85) ∧
      LengthPresent { scene 2 0 [0x81, 0x85, 0x37, 0xFA, 0x21] with srcLen := 6 } (headerOf 0x81 0x85) [] 5 ∧
      LengthAccepted { scene 2 0 [0x81, 0x85, 0x37, 0xFA, 0x21] with srcLen := 6 } (headerOf 0x81 0x85) 5 ∧
      frameHdrLen (headerOf 0x81 0x85) = ({ scene 2 0 [0x81, 0x85, 0x37, 0xFA, 0x21] with srcLen := 6 } : State).srcLen.toNat ∧ (headerOf 0x81 0x85).masked = true ∧
      UnwrittenAfter ({ scene 2 0 [0x81, 0x85, 0x37, 0xFA, 0x21] with srcLen := 6 } : State).buf 2 4 [0x37, 0xFA, 0x21] ∧
      faultIs (exec .decode { scene 2 0 [0x81, 0x85, 0x37, 0xFA, 0x21] with srcLen := 6 }) (.unwrittenByte 5) = true := by
  simp only [LengthPresent, UnwrittenAfter, BytesAt]
  and_intros <;> decide +kernel

theorem witness_UnwrittenReadsFault_payload :
    RegionsPass { scene 2 5 (maskedHello.take 10) with srcLen := 11 } ∧ FirstBytes { scene 2 5 (maskedHello.take 10) with srcLen := 11 } 0x81 0x85 ∧ HeaderAccepted { scene 2 5 (maskedHello.take 10) with srcLen := 11 } (headerOf 0x81 0x85) ∧
      LengthPresent { scene 2 5 (maskedHello.take 10) with srcLen := 11 } (headerOf 0x81 0x85) [] 5 ∧ LengthAccepted { scene 2 5 (maskedHello.take 10) with srcLen := 11 } (headerOf 0x81 0x85) 5 ∧
      BytesAt ({ scene 2 5 (maskedHello.take 10) with srcLen := 11 } : State).buf 2 [0x37, 0xFA, 0x21, 0x3D] ∧
      frameHdrLen (headerOf 0x81 0x85) + 5 = ({ scene 2 5 (maskedHello.take 10) with srcLen := 11 } : State).srcLen.toNat ∧ 5 = ({ scene 2 5 (maskedHello.take 10) with srcLen := 11 } : State).dstCap.toNat ∧
      UnwrittenAfter ({ scene 2 5 (maskedHello.take 10) with srcLen := 11 } : State).buf 6 5 [0x7F, 0x9F, 0x4D, 0x51] ∧
      faultIs (exec .decode { scene 2 5 (maskedHello.take 10) with srcLen := 11 }) (.unwrittenByte 10) = true := by
  simp only [LengthPresent, UnwrittenAfter, BytesAt]
  and_intros <;> decide +kernel

theorem witness_UnwrittenReadsFault_encode :
    RegionsPass { scene 2 8 hello with srcLen := 6 } ∧ argumentStatus (ctrlClient ({ scene 2 8 hello with srcLen := 6 } : State).ctrl) 0x1 true false ({ scene 2 8 hello with srcLen := 6 } : State).srcLen.toNat = none ∧
      lawHdrLen ({ scene 2 8 hello with srcLen := 6 } : State).srcLen.toNat false + ({ scene 2 8 hello with srcLen := 6 } : State).srcLen.toNat = ({ scene 2 8 hello with srcLen := 6 } : State).dstCap.toNat ∧
      UnwrittenAfter ({ scene 2 8 hello with srcLen := 6 } : State).buf 0 6 hello ∧
      faultIs (exec (.encode 0x1 true false) { scene 2 8 hello with srcLen := 6 }) (.unwrittenByte 5) = true := by
  simp only [UnwrittenAfter, BytesAt]
  and_intros <;> decide +kernel

theorem witness_UnwrittenReadsFault_mask :
    MaskRegionsPass { scene 3 6 hello with srcLen := 6 } ∧ ({ scene 3 6 hello with srcLen := 6 } : State).srcLen.toNat = ({ scene 3 6 hello with srcLen := 6 } : State).dstCap.toNat ∧ UnwrittenAfter ({ scene 3 6 hello with srcLen := 6 } : State).buf 0 6 hello ∧
      faultIs (exec .mask { scene 3 6 hello with srcLen := 6 }) (.unwrittenByte 5) = true := by
  simp only [UnwrittenAfter, BytesAt]
  and_intros <;> decide +kernel

theorem witness_UnwrittenReadsFault_validate_source :
    ValidateRuns { answer [0x0D, 0x0A, 0x0D] [0x41] with srcLen := 4 } ∧ 4 = ({ answer [0x0D, 0x0A, 0x0D] [0x41] with srcLen := 4 } : State).srcLen.toNat ∧ UnwrittenAfter ({ answer [0x0D, 0x0A, 0x0D] [0x41] with srcLen := 4 } : State).buf 0 4 [0x0D, 0x0A, 0x0D] ∧
      faultIs (exec .validate { answer [0x0D, 0x0A, 0x0D] [0x41] with srcLen := 4 }) (.unwrittenByte 3) = true := by
  simp only [UnwrittenAfter, BytesAt]
  and_intros <;> decide +kernel

theorem witness_UnwrittenReadsFault_validate_aux :
    ValidateRuns { judged goodBlock with auxLen := 2 } ∧ BlockPresent { judged goodBlock with auxLen := 2 } goodBlock ∧
      statusLineOk ((splitLines goodBlock).headD []) = true ∧ valuesOf txtUpgrade (blockFields goodBlock) = [txtWebsocket] ∧
      valuesOf txtConnection (blockFields goodBlock) = [txtUpgrade] ∧ valuesOf txtAccept (blockFields goodBlock) = [[0x41]] ∧
      UnwrittenAfter ({ judged goodBlock with auxLen := 2 } : State).buf 512 2 [0x41] ∧
      faultIs (exec .validate { judged goodBlock with auxLen := 2 }) (.unwrittenByte 513) = true := by
  simp only [BlockPresent, UnwrittenAfter, BytesAt]
  and_intros <;> decide +kernel

theorem witness_PlatformWindows :
    State.reset.cfg.regBase + 0x100 ≤ State.reset.cfg.bufBase ∧
      ends (serve (.platformWrite 0x13FF 8 0x41) State.reset) (fun t => t.buf.read 1023 == some 0x41) = true ∧
      refusalIs (serve (.platformRead 0x1400 8) State.reset) (.outsideWindows 0x1400) = true ∧
      refusalIs (serve (.platformRead 0x1000 16) State.reset) (.bufferWidth 16) = true ∧
      refusalIs (serve (.platformRead 0x04 8) State.reset) (.registerAccess 0x04 8) = true ∧
      ends (serve (.platformWrite 0x1000 32 0x01020304) State.reset) (fun t => t.buf.read 0 == some 0x04) = true := by
  and_intros <;> decide +kernel

theorem witness_BufferReadsTheLastWrite :
    Memory.wf (Memory.writeBytes [] 0 hello) = true ∧ (Memory.writeBytes [] 0 hello).read 5 = none := by
  and_intros <;> decide +kernel

/-- A step from a state that meets every invariant; DECODE of the masked frame changes STATUS, R_FRAME, R_CONSUMED and BUF.
For the `StepKeeps` statements. -/
theorem witness_StepKeeps :
    Legal (asked (.regWrite 0x08 32 0x00000001) (scene 2 5 maskedHello)) ∧
      ∃ t, step (asked (.regWrite 0x08 32 0x00000001) (scene 2 5 maskedHello)) = .next t ∧ (t.status == 0x00000001) = true :=
  ⟨⟨by decide +kernel, by decide +kernel, by decide +kernel, .inl rfl, by decide +kernel, by decide +kernel⟩,
    ends_next (p := fun t => t.status == 0x00000001) (by decide +kernel)⟩

/-- A step that changes CTRL, for `StepKeepsParamsAndCtrl`. -/
theorem witness_StepKeepsParamsAndCtrl :
    ∃ t, step (asked (.regWrite 0x04 32 0x00000002) State.reset) = .next t ∧ (t.ctrl != State.reset.ctrl) = true :=
  ends_next (p := fun t => t.ctrl != State.reset.ctrl) (by decide +kernel)

/-- The bounds of BUF_SIZE, for `ResetIsLegal`. -/
theorem witness_ResetIsLegal : Config.Valid ⟨1, 0, 0x100⟩ ∧ Config.Valid ⟨0x100000000, 0, 0x100⟩ := by
  decide +kernel

end Sys2Proof.Tests
end

section
/-!
PROOFS. The parameters, CTRL and the written bytes of BUF under a step: what a command leaves in general, which transaction
can have which effect, and from these the invariants of 00_scope.md R7, 10_state.md R27 and 70_reset_and_hazards.md R282.
-/

namespace Sys2Proof.Machine

open Sys2Proof.Safety

/-! ## BUF only gains bytes -/

/-- Storing bytes makes no written address unwritten. -/
theorem Memory.read_writeBytes_ne_none (bs : List Byte) (m : Memory) (a : Nat) {x : Nat} (h : m.read x ≠ none) :
    (m.writeBytes a bs).read x ≠ none := by
  by_cases hx : a ≤ x ∧ x < a + bs.length
  · obtain ⟨i, rfl⟩ := Nat.exists_eq_add_of_le hx.1
    simp [Memory.read_writeBytes_inside bs m a i (by omega)]
  · rwa [Memory.read_writeBytes_outside bs m a x (by omega)]

/-! ## A write of a register -/

@[simp] theorem State.writeReg_cfg (s : State) (r : Reg) (v : Word) : (s.writeReg r v).cfg = s.cfg := by cases r <;> rfl

@[simp] theorem State.writeReg_buf (s : State) (r : Reg) (v : Word) : (s.writeReg r v).buf = s.buf := by cases r <;> rfl

theorem State.writeReg_ctrl (s : State) (r : Reg) (v : Word) :
    (s.writeReg r v).ctrl = if r = .ctrl then ctrlWritten v else s.ctrl := by
  cases r <;> rfl

/-- A write of CTRL leaves its reserved bits 0 (10_state.md R27). -/
theorem ctrlWritten_reserved (v : Word) : ctrlWritten v &&& 0xFFFFFFF8 = 0 := by
  simp [ctrlWritten, BitVec.and_assoc]

/-! ## What a command leaves -/

/-- The three forms of the state a command leaves: ended with a cause, ended OK, cleared. -/
inductive CommandLeaves (s : State) : State → Prop where
  | failed (c : Cause) (frame : Word) (paylen consumed needed : Nat) :
      CommandLeaves s (failed s c frame paylen consumed needed)
  | succeeded (frame : Word) (paylen consumed : Nat) (stored : List Byte) (key : Option Word) (draws : Nat) :
      CommandLeaves s (succeeded s frame paylen consumed stored key draws)
  | cleared : CommandLeaves s (s.clearResults.setStatus 0)

/-- Every instruction that ends in a next state leaves one of those. -/
theorem exec_leaves {i : Instr} {s t : State} (e : exec i s = .next t) : CommandLeaves s t := by
  cases exec_ends e with
  | decode _ h =>
    cases h with
    | early | header | length => exact .failed ..
    | ok => exact .succeeded ..
  | encode _ _ _ _ h =>
    cases h with
    | failed => exact .failed ..
    | ok => exact .succeeded ..
  | mask _ h =>
    cases h with
    | failed => exact .failed ..
    | ok => exact .succeeded ..
  | validate _ h =>
    cases h with
    | refused | incomplete | judged => exact .failed ..
    | accepted => exact .succeeded ..
  | clear _ h => exact h ▸ .cleared
  | illegal w _ h => exact h ▸ .failed ..

theorem CommandLeaves.cfg_eq {s t : State} (h : CommandLeaves s t) : t.cfg = s.cfg := by cases h <;> rfl

theorem CommandLeaves.ctrl_eq {s t : State} (h : CommandLeaves s t) : t.ctrl = s.ctrl := by cases h <;> rfl

/-- A command stores bytes at DST_ADDR, or none. -/
theorem CommandLeaves.buf_eq {s t : State} (h : CommandLeaves s t) :
    ∃ bs, t.buf = s.buf.writeBytes s.dstAddr.toNat bs := by
  cases h with
  | failed => exact ⟨[], rfl⟩
  | succeeded _ _ _ stored => exact ⟨stored, rfl⟩
  | cleared => exact ⟨[], rfl⟩

/-! ## What each transaction answers -/

section
variable {s t : State}

/-- A register write runs the command of the word or does what 10_state.md R47 says of its register; one at an offset without a
register is as a write of ID, which has no effect. -/
theorem hostWrite_next {off bits : Nat} {v : Word} (h : hostWrite off bits v s = .next t) :
    exec (decodeWord v) s = .next t ∨ ∃ r, t = s.writeReg r v := by
  unfold hostWrite at h
  split_ifs at h
  split at h
  · exact .inl h
  · exact .inr ⟨_, by simpa [eq_comm] using h⟩
  · exact .inr ⟨.id, by simpa [eq_comm, State.writeReg] using h⟩

theorem hostRead_next {off bits : Nat} :
    hostRead off bits s = .next t ↔
      registerAccessOk off bits = true ∧ t = { s with reply := .word (s.readOffset off) } := by
  unfold hostRead
  split_ifs with hok <;> simp [hok, @eq_comm State _ t]

theorem hostBufWrite_next {a : Nat} {b : Byte} :
    hostBufWrite a b s = .next t ↔ a < s.cfg.bufSize ∧ t = s.writeBuf a [b] := by
  unfold hostBufWrite
  split_ifs with hin <;> simp [hin, @eq_comm State _ t]

theorem hostBufWriteWide_next {a : Nat} {v : Word} :
    hostBufWriteWide a v s = .next t ↔ a % 4 = 0 ∧ a + 4 ≤ s.cfg.bufSize ∧ t = s.writeBuf a (laneBytes v) := by
  unfold hostBufWriteWide
  split_ifs with hal hin <;> simp_all [@eq_comm State _ t]

theorem hostBufRead_next {a : Nat} :
    hostBufRead a s = .next t ↔ a < s.cfg.bufSize ∧ ∃ b, s.readByte a = .ok b ∧ t = { s with reply := .byte b } := by
  unfold hostBufRead
  split_ifs with hin <;> simp [hin, reading_next, @eq_comm State _ t]

theorem hostBufReadWide_next {a : Nat} :
    hostBufReadWide a s = .next t ↔ a % 4 = 0 ∧ a + 4 ≤ s.cfg.bufSize ∧
      ∃ bs, s.readBytes a 4 = .ok bs ∧ t = { s with reply := .word (laneWord bs) } := by
  unfold hostBufReadWide
  split_ifs with hal hin <;> simp_all [reading_next, @eq_comm State _ t]

/-- A platform write is a write of one of the two windows (20_memory.md R64). -/
theorem platformWrite_next {addr bits : Nat} {v : Word} (h : platformWrite addr bits v s = .next t) :
    (∃ off, hostWrite off bits v s = .next t) ∨ (∃ a, hostBufWrite a (v.setWidth 8) s = .next t) ∨
      ∃ a, hostBufWriteWide a v s = .next t := by
  unfold platformWrite at h
  split at h
  · exact .inl ⟨_, h⟩
  · split_ifs at h
    · exact .inr (.inl ⟨_, h⟩)
    · exact .inr (.inr ⟨_, h⟩)
  · cases h

/-- A platform read is a read of one of the two windows (20_memory.md R64). -/
theorem platformRead_next {addr bits : Nat} (h : platformRead addr bits s = .next t) :
    (∃ off, hostRead off bits s = .next t) ∨ (∃ a, hostBufRead a s = .next t) ∨ ∃ a, hostBufReadWide a s = .next t := by
  unfold platformRead at h
  split at h
  · exact .inl ⟨_, h⟩
  · split_ifs at h
    · exact .inr (.inl ⟨_, h⟩)
    · exact .inr (.inr ⟨_, h⟩)
  · cases h

end

/-! ## Which transaction has which effect -/

/-- The transactions that can write a register: those of the register window and of the platform's map. -/
def HostOp.WritesRegister (op : HostOp) : Prop :=
  (∃ off bits v, op = .regWrite off bits v) ∨ ∃ a bits v, op = .platformWrite a bits v

/-- The effects of `Served`, each tied to the transactions that can have it. -/
inductive ServedBy (op : HostOp) (s t : State) : Prop where
  | command (i : Instr) (h : exec i s = .next t)
  | register (hop : op.WritesRegister) (r : Reg) (v : Word) (h : t = s.writeReg r v)
  | answer (r : Reply) (h : t = { s with reply := r })
  | store (a : Nat) (bs : List Byte) (h : t = s.writeBuf a bs)
  | reset (hop : op = .reset) (h : t = resetState s)

section
variable {op : HostOp} {s t : State}

theorem ServedBy.of_hostWrite {off bits : Nat} {v : Word} (hop : op.WritesRegister)
    (h : hostWrite off bits v s = .next t) : ServedBy op s t := by
  obtain h | ⟨r, h⟩ := hostWrite_next h
  · exact .command _ h
  · exact .register hop r v h

theorem ServedBy.of_hostRead {off bits : Nat} (h : hostRead off bits s = .next t) : ServedBy op s t :=
  .answer _ (hostRead_next.1 h).2

theorem ServedBy.of_hostBufWrite {a : Nat} {b : Byte} (h : hostBufWrite a b s = .next t) : ServedBy op s t :=
  .store a [b] (hostBufWrite_next.1 h).2

theorem ServedBy.of_hostBufWriteWide {a : Nat} {v : Word} (h : hostBufWriteWide a v s = .next t) : ServedBy op s t :=
  .store a (laneBytes v) (hostBufWriteWide_next.1 h).2.2

theorem ServedBy.of_hostBufRead {a : Nat} (h : hostBufRead a s = .next t) : ServedBy op s t := by
  obtain ⟨-, b, -, h⟩ := hostBufRead_next.1 h
  exact .answer (.byte b) h

theorem ServedBy.of_hostBufReadWide {a : Nat} (h : hostBufReadWide a s = .next t) : ServedBy op s t := by
  obtain ⟨-, -, bs, -, h⟩ := hostBufReadWide_next.1 h
  exact .answer (.word (laneWord bs)) h

/-- Every transaction that ends in a next state has an effect it can have. -/
theorem serve_servedBy (h : serve op s = .next t) : ServedBy op s t := by
  cases op with
  | regWrite off bits v => exact .of_hostWrite (.inl ⟨off, bits, v, rfl⟩) h
  | regRead off bits => exact .of_hostRead h
  | bufWrite a b => exact .of_hostBufWrite h
  | bufRead a => exact .of_hostBufRead h
  | bufWriteWide a v => exact .of_hostBufWriteWide h
  | bufReadWide a => exact .of_hostBufReadWide h
  | platformWrite addr bits v =>
    obtain ⟨_, h⟩ | ⟨_, h⟩ | ⟨_, h⟩ := platformWrite_next h
    · exact .of_hostWrite (.inr ⟨addr, bits, v, rfl⟩) h
    · exact .of_hostBufWrite h
    · exact .of_hostBufWriteWide h
  | platformRead addr bits =>
    obtain ⟨_, h⟩ | ⟨_, h⟩ | ⟨_, h⟩ := platformRead_next h
    · exact .of_hostRead h
    · exact .of_hostBufRead h
    · exact .of_hostBufReadWide h
  | reset => exact .reset rfl (by simpa [serve, eq_comm] using h)

/-! ## What one transaction keeps -/

/-- No transaction changes the parameters (00_scope.md R7). -/
theorem ServedBy.cfg_eq (h : ServedBy op s t) : t.cfg = s.cfg := by
  cases h with
  | command i h => exact (exec_leaves h).cfg_eq
  | register _ r v h => simp [h]
  | answer r h => rw [h]
  | store a bs h => simp [h]
  | reset _ h => rw [h]; rfl

/-- CTRL is kept, takes a value with its reserved bits 0 by a write of a register, or takes its value after reset. -/
theorem ServedBy.ctrl_cases (h : ServedBy op s t) :
    t.ctrl = s.ctrl ∨ (op.WritesRegister ∧ ∃ v, t.ctrl = ctrlWritten v) ∨ (op = .reset ∧ t.ctrl = 0x00000003) := by
  cases h with
  | command i h => exact .inl (exec_leaves h).ctrl_eq
  | register hop r v h =>
    rw [h, State.writeReg_ctrl]
    split_ifs
    · exact .inr (.inl ⟨hop, v, rfl⟩)
    · exact .inl rfl
  | answer r h => exact .inl (by rw [h])
  | store a bs h => exact .inl (by simp [h])
  | reset hop h => exact .inr (.inr ⟨hop, by rw [h]; rfl⟩)

/-- CTRL keeps its reserved bits 0 (10_state.md R27). -/
theorem ServedBy.ctrlLegal (h : ServedBy op s t) (hs : CtrlLegal s) : CtrlLegal t := by
  unfold CtrlLegal at hs ⊢
  obtain h | ⟨-, v, h⟩ | ⟨-, h⟩ := h.ctrl_cases
  · rwa [h]
  · rw [h, ctrlWritten_reserved]
  · rw [h]; decide

/-- Only reset makes a written byte unwritten (70_reset_and_hazards.md R282). -/
theorem ServedBy.written (h : ServedBy op s t) (hop : op ≠ .reset) {a : Nat} (ha : s.buf.read a ≠ none) :
    t.buf.read a ≠ none := by
  cases h with
  | command i h =>
    obtain ⟨bs, hbuf⟩ := (exec_leaves h).buf_eq
    exact hbuf ▸ Memory.read_writeBytes_ne_none bs _ _ ha
  | register _ r v h => simpa [h] using ha
  | answer r h => simpa [h] using ha
  | store b bs h => exact h ▸ Memory.read_writeBytes_ne_none bs _ b ha
  | reset hr _ => exact absurd hr hop

end

/-- Settles O56: an idle step keeps the whole state, and a step that serves a transaction keeps what `ServedBy` keeps. -/
theorem stepKeepsParamsAndCtrl : Obligations.StepKeepsParamsAndCtrl := by
  intro s t h
  obtain ⟨-, rfl⟩ | ⟨op, rest, hp, h⟩ := step_next h
  · exact ⟨rfl, id, fun hne => absurd rfl hne, fun a ha hn => absurd hn ha⟩
  · have hserved : ServedBy op (s.taken rest) t := serve_servedBy h
    simp only [hp, List.head?_cons, Option.mem_some_iff, exists_eq_left', Option.some.injEq]
    refine ⟨hserved.cfg_eq, hserved.ctrlLegal, fun hne => ?_, fun a ha hn => ?_⟩
    · obtain hc | ⟨hw, -⟩ | ⟨hr, -⟩ := hserved.ctrl_cases
      · exact absurd hc hne
      · exact .inr hw
      · exact .inl hr
    · by_contra hop
      exact hserved.written hop ha hn

end Sys2Proof.Machine
end

section
/-!
PROOFS. The registers (10_state.md): the layout of R_FRAME and of the frame bytes, the register window and the word a step
runs, and what commands and steps keep of the operand registers, MASKKEY, BUF and the result registers.
-/

namespace Sys2Proof.Machine

open Sys2Proof.Stated Sys2Proof.Safety

/-! ## The R_FRAME word -/

section
variable (op : BitVec 4) (rsv : BitVec 3) (fin masked : Bool) (len7 : BitVec 7) (n : Nat) (lv : Bool)

/-- The R_FRAME word bit by bit (10_state.md R41); its fields are read off from this. -/
theorem getLsbD_frameWord (i : Nat) :
    (frameWord op rsv fin masked len7 n lv).getLsbD i =
      if i < 4 then op.getLsbD i else if i < 7 then rsv.getLsbD (i - 4) else if i < 8 then fin
      else if i < 9 then masked else if i < 16 then len7.getLsbD (i - 9)
      else if i < 20 then (BitVec.ofNat 4 n).getLsbD (i - 16) else if i < 21 then true else if i < 22 then lv
      else false := by
  simp only [frameWord, BitVec.getLsbD_append, BitVec.getLsbD_ofBool]
  obtain hlow | hhigh := Nat.lt_or_ge i 16 <;> grind

theorem frameWord_op : (frameWord op rsv fin masked len7 n lv).extractLsb' 0 4 = op := by
  ext i hi
  rw [BitVec.getElem_extractLsb', getLsbD_frameWord]
  grind

theorem frameWord_rsv : (frameWord op rsv fin masked len7 n lv).extractLsb' 4 3 = rsv := by
  ext i hi
  rw [BitVec.getElem_extractLsb', getLsbD_frameWord]
  grind

theorem frameWord_fin : (frameWord op rsv fin masked len7 n lv).getLsbD 7 = fin := getLsbD_frameWord ..

@[simp] theorem frameWord_masked : (frameWord op rsv fin masked len7 n lv).getLsbD 8 = masked := getLsbD_frameWord ..

theorem frameWord_len7 : (frameWord op rsv fin masked len7 n lv).extractLsb' 9 7 = len7 := by
  ext i hi
  rw [BitVec.getElem_extractLsb', getLsbD_frameWord]
  grind

theorem frameWord_hdrLen : (frameWord op rsv fin masked len7 n lv).extractLsb' 16 4 = BitVec.ofNat 4 n := by
  ext i hi
  rw [BitVec.getElem_extractLsb', getLsbD_frameWord]
  grind

@[simp] theorem frameHV_frameWord : frameHV (frameWord op rsv fin masked len7 n lv) = true := getLsbD_frameWord ..

@[simp] theorem frameLV_frameWord : frameLV (frameWord op rsv fin masked len7 n lv) = lv := getLsbD_frameWord ..

theorem frameWord_reserved : (frameWord op rsv fin masked len7 n lv).extractLsb' 22 10 = 0 := by
  ext i hi
  rw [BitVec.getElem_extractLsb', getLsbD_frameWord]
  grind

/-- The mask of R_FRAME's reserved bits, 31:22. -/
theorem getLsbD_reservedMask : ∀ i < 32, (0xFFC00000 : Word).getLsbD i = decide (22 ≤ i) := by decide

theorem frameWord_and_reserved : frameWord op rsv fin masked len7 n lv &&& 0xFFC00000 = 0 := by
  refine BitVec.eq_of_getLsbD_eq fun i hi => ?_
  rw [BitVec.getLsbD_and, getLsbD_reservedMask i hi, getLsbD_frameWord]
  grind

end

/-- The header length fits the four bits of HDRLEN (30_encoding.md R90). -/
theorem headerLen_lt (len7 : BitVec 7) (masked : Bool) : headerLen len7 masked < 16 := by
  unfold headerLen extLen
  split_ifs <;> decide

theorem byte0Op_byte0Of : ∀ (op : BitVec 4) (fin : Bool) (rsv : BitVec 3), byte0Op (byte0Of op fin rsv) = op := by
  decide +kernel

/-- Settles O5, from the bits of the R_FRAME word and the fields of bytes 0 and 1. -/
theorem frameRegisterAndByteLayout : Obligations.FrameRegisterAndByteLayout := by
  refine ⟨fun h lv => ?_, fun w => ⟨rfl, rfl⟩, fun b0 b1 => ⟨rfl, rfl, rfl, rfl, rfl⟩, fun op fin rsv masked len7 => ?_⟩
  · have hlen : ((headerWord h lv).extractLsb' 16 4).toNat = frameHdrLen h := by
      rw [headerWord, frameWord_hdrLen, BitVec.toNat_ofNat, Nat.mod_eq_of_lt (headerLen_lt ..), frameHdrLen]
    exact ⟨frameWord_op .., frameWord_rsv .., frameWord_fin .., frameWord_masked .., frameWord_len7 .., hlen,
      frameHV_frameWord .., frameLV_frameWord .., frameWord_reserved .., rfl, rfl⟩
  · obtain ⟨-, hfin, hrsv⟩ := Laws.TableRow.byte0Of_fields op fin rsv
    obtain ⟨hmasked, hlen7⟩ := Laws.TableRow.byte1Of_fields masked len7
    exact ⟨hfin, hrsv, byte0Op_byte0Of op fin rsv, hmasked, hlen7⟩

/-! ## The register window -/

/-- A step serves the oldest transaction. -/
theorem step_of_pending {s : State} {op : HostOp} {rest : List HostOp} (h : s.pending = op :: rest) :
    step s = serve op (s.taken rest) := by
  simp [step, serveNext, h]

theorem registerAccessOk_word {off : Nat} (hal : off % 4 = 0) (hlt : off < 0x100) : registerAccessOk off 32 = true := by
  simp [registerAccessOk, hal, hlt]

theorem registerAccessOk_eq_false {off bits : Nat} :
    registerAccessOk off bits = false ↔ bits ≠ 32 ∨ off % 4 ≠ 0 ∨ 0x100 ≤ off := by
  rw [registerAccessOk, decide_eq_false_iff_not]
  omega

/-- A word written to CMD runs its command (10_state.md R28). -/
theorem hostWrite_cmd (v : Word) (s : State) : hostWrite 0x08 32 v s = exec (decodeWord v) s := rfl

/-- The registers are read at the offsets of 10_state.md R47; the last case is an offset without a register. -/
theorem readOffset_eq_windowValue (s : State) (off : Nat) : s.readOffset off = windowValue s off := by
  fun_cases regAt off
  case case18 => simp_all [State.readOffset, windowValue, regAt]
  all_goals rfl

/-- The registers are written at the offsets of 10_state.md R47; the third case is CMD, the last an offset without a
register. -/
theorem hostWrite_eq_windowWritten {off : Nat} (hal : off % 4 = 0) (hlt : off < 0x100) (hcmd : off ≠ 0x08) (v : Word)
    (s : State) : hostWrite off 32 v s = .next (windowWritten s off v) := by
  have hok : registerAccessOk off 32 = true := registerAccessOk_word hal hlt
  fun_cases regAt off
  case case3 => exact absurd rfl hcmd
  case case18 => simp_all [hostWrite, windowWritten, regAt]
  all_goals rfl

/-- Settles O50: a step on the register window is a read or a write at its offset. -/
theorem registerWindow : Obligations.RegisterWindow := by
  refine ⟨fun w => ⟨rfl, rfl, rfl⟩, fun s rest off hal hlt => ⟨fun hp => ?_, fun v hp hcmd => ?_⟩⟩
  · rw [step_of_pending hp, serve, hostRead, registerAccessOk_word hal hlt, readOffset_eq_windowValue]
    rfl
  · rw [step_of_pending hp, serve, hostWrite_eq_windowWritten hal hlt hcmd]

/-- Settles O51: the access test comes before anything else a register access does. -/
theorem badRegisterAccessIsRefused : Obligations.BadRegisterAccessIsRefused := by
  intro s rest off bits v hbad
  have hok : registerAccessOk off bits = false := registerAccessOk_eq_false.2 hbad
  refine ⟨fun hp => ?_, fun hp => ?_⟩
  · simp [step_of_pending hp, serve, hostWrite, hok]
  · simp [step_of_pending hp, serve, hostRead, hok]

/-! ## The word a step runs -/

/-- Settles O6: the step serves the oldest transaction, and that one is an access of CMD. -/
theorem stepRunsTheCommandWord : Obligations.StepRunsTheCommandWord := by
  refine fun s rest => ⟨fun v hp => ?_, fun hp => ?_⟩
  · rw [step_of_pending hp, serve, hostWrite_cmd]
  · rw [step_of_pending hp]
    rfl

/-- The row of a byte 0 has that byte as its encoding (30_encoding.md R86, R88). -/
theorem encode_decodeByte0 : ∀ b : Byte, encode (decodeByte0 b) = .byte0 b := by decide +kernel

/-- The row of a byte 0 is DECODE with that byte in the place of byte 0 (assumption 6). -/
theorem exec_of_encode_byte0 {i : Instr} {b : Byte} (h : encode i = .byte0 b) (s : State) :
    exec i s = runDecode (.ok b) (s.readSrc 1) s := by
  cases i <;> cases h <;> rfl

/-- A step that serves the write of DECODE's word runs DECODE. -/
theorem step_startDecode {s : State} {rest : List HostOp} (h : s.pending = startCommand 0x00000001 :: rest) :
    step s = execDecode (s.taken rest) := by
  rw [step_of_pending h]
  rfl

/-- A byte placed as byte 0 of a frame stands at the source address. -/
theorem readSrc_place_byte0 (s : State) (b : Byte) (rest : List HostOp) :
    ((place s (.byte0 b)).taken rest).readSrc 0 = .ok b :=
  State.readByte_ok.2 (Memory.read_writeBytes_inside [b, 0] s.buf 0 0 (Nat.succ_pos _))

/-- Settles O8: the byte that was placed is what DECODE reads as byte 0. -/
theorem placedTableWordRunsNext : Obligations.PlacedTableWordRunsNext := by
  refine fun s w => ⟨rfl, fun i hi => ?_⟩
  have hb : encode i = .byte0 (BitVec.ofNat 8 w) := Option.some.inj hi ▸ encode_decodeByte0 _
  rw [exec_of_encode_byte0 hb, step_startDecode rfl, execDecode]
  exact congrArg (runDecode · _ _) (readSrc_place_byte0 s _ _)

/-! ## What commands and steps keep of the operand registers -/

/-- The operand registers and CTRL hold the same values in both states. -/
structure SameOperands (s t : State) : Prop where
  srcAddr : t.srcAddr = s.srcAddr
  srcLen : t.srcLen = s.srcLen
  dstAddr : t.dstAddr = s.dstAddr
  dstCap : t.dstCap = s.dstCap
  auxAddr : t.auxAddr = s.auxAddr
  auxLen : t.auxLen = s.auxLen
  ctrl : t.ctrl = s.ctrl

theorem SameOperands.of_taken {s t : State} {rest : List HostOp} (h : SameOperands (s.taken rest) t) :
    SameOperands s t :=
  ⟨h.srcAddr, h.srcLen, h.dstAddr, h.dstCap, h.auxAddr, h.auxLen, h.ctrl⟩

/-- No command changes an operand register or CTRL (10_state.md R37). -/
theorem CommandLeaves.sameOperands {s t : State} (h : CommandLeaves s t) : SameOperands s t := by
  cases h <;> exact ⟨rfl, rfl, rfl, rfl, rfl, rfl, rfl⟩

theorem CommandLeaves.pending_eq {s t : State} (h : CommandLeaves s t) : t.pending = s.pending := by cases h <;> rfl

theorem CommandLeaves.reply_eq {s t : State} (h : CommandLeaves s t) : t.reply = s.reply := by cases h <;> rfl

theorem hostBufRead_answers {a : Nat} {s t : State} (h : hostBufRead a s = .next t) : ∃ r, t = { s with reply := r } := by
  obtain ⟨-, b, -, h⟩ := hostBufRead_next.1 h
  exact ⟨.byte b, h⟩

theorem hostBufReadWide_answers {a : Nat} {s t : State} (h : hostBufReadWide a s = .next t) :
    ∃ r, t = { s with reply := r } := by
  obtain ⟨-, -, bs, -, h⟩ := hostBufReadWide_next.1 h
  exact ⟨.word (laneWord bs), h⟩

/-- A transaction that can not write a register and is not reset answers or stores bytes in BUF, and does nothing else. -/
theorem serve_of_not_writesRegister {op : HostOp} {s t : State} (hw : ¬ op.WritesRegister) (hr : op ≠ .reset)
    (h : serve op s = .next t) : (∃ r, t = { s with reply := r }) ∨ ∃ a bs, t = s.writeBuf a bs := by
  cases op with
  | regWrite off bits v => exact absurd (.inl ⟨off, bits, v, rfl⟩) hw
  | platformWrite addr bits v => exact absurd (.inr ⟨addr, bits, v, rfl⟩) hw
  | reset => exact absurd rfl hr
  | bufWrite a b => exact .inr ⟨_, _, (hostBufWrite_next.1 h).2⟩
  | bufWriteWide a v => exact .inr ⟨_, _, (hostBufWriteWide_next.1 h).2.2⟩
  | regRead off bits => exact .inl ⟨_, (hostRead_next.1 h).2⟩
  | bufRead a => exact .inl (hostBufRead_answers h)
  | bufReadWide a => exact .inl (hostBufReadWide_answers h)
  | platformRead addr bits =>
    obtain ⟨_, h⟩ | ⟨_, h⟩ | ⟨_, h⟩ := platformRead_next h
    · exact .inl ⟨_, (hostRead_next.1 h).2⟩
    · exact .inl (hostBufRead_answers h)
    · exact .inl (hostBufReadWide_answers h)

/-- Such a transaction keeps the operand registers, CTRL and MASKKEY. -/
theorem serve_keeps_operands {op : HostOp} {s t : State} (hw : ¬ op.WritesRegister) (hr : op ≠ .reset)
    (h : serve op s = .next t) : SameOperands s t ∧ t.maskKey = s.maskKey := by
  obtain ⟨r, rfl⟩ | ⟨a, bs, rfl⟩ := serve_of_not_writesRegister hw hr h <;>
    exact ⟨⟨rfl, rfl, rfl, rfl, rfl, rfl, rfl⟩, rfl⟩

/-- A step that serves no such transaction, or none, keeps them too. -/
theorem step_keeps_operands {s t : State} (h : step s = .next t)
    (hop : ∀ op ∈ s.pending.head?, ¬ op.WritesRegister ∧ op ≠ .reset) : SameOperands s t ∧ t.maskKey = s.maskKey := by
  obtain ⟨-, rfl⟩ | ⟨op, rest, hp, h⟩ := step_next h
  · exact ⟨⟨rfl, rfl, rfl, rfl, rfl, rfl, rfl⟩, rfl⟩
  · obtain ⟨hw, hr⟩ := hop op (by simp [hp])
    exact (serve_keeps_operands hw hr h).imp_left .of_taken

/-- Settles O15: a command leaves a state with the operand registers as they were, and a step can write them by the three
transactions alone. -/
theorem commandsKeepTheOperands : Obligations.CommandsKeepTheOperands := by
  refine ⟨fun i s t h => ?_, fun s t h hop => ?_⟩
  · have hl : CommandLeaves s t := exec_leaves h
    have ho : SameOperands s t := hl.sameOperands
    exact ⟨ho.srcAddr, ho.srcLen, ho.dstAddr, ho.dstCap, ho.auxAddr, ho.auxLen, ho.ctrl, hl.cfg_eq, hl.pending_eq,
      hl.reply_eq⟩
  · have hquiet : ∀ op ∈ s.pending.head?, ¬ op.WritesRegister ∧ op ≠ .reset := fun op hhead => by
      obtain ⟨hr, hreg, hplat⟩ := hop op hhead
      refine ⟨?_, hr⟩
      rintro (⟨off, bits, v, e⟩ | ⟨a, bits, v, e⟩)
      · exact hreg off bits v e
      · exact hplat a bits v e
    obtain ⟨ho, hkey⟩ := step_keeps_operands h hquiet
    exact ⟨ho.srcAddr, ho.srcLen, ho.dstAddr, ho.dstCap, ho.auxAddr, ho.auxLen, ho.ctrl, hkey⟩

/-! ## MASKKEY -/

theorem runsDecode_of_isDecoding {i : Instr} (h : isDecoding i = true) : RunsDecode i := by
  cases i <;> simp_all [isDecoding, RunsDecode]

theorem isSome_of_getD_ne {key : Option Word} {k : Word} (h : key.getD k ≠ k) : key.isSome = true := by
  cases key with
  | none => exact absurd rfl h
  | some _ => rfl

/-- Settles O18: only an OK ending of ENCODE or DECODE has a key, and it has one exactly where the frame is masked. -/
theorem maskKeyHasTwoWriters : Obligations.MaskKeyHasTwoWriters := by
  intro i s t e hne
  cases exec_ends e with
  | decode hi h =>
    cases h with
    | early | header | length => exact absurd rfl hne
    | ok hd key p _ _ _ hkey _ =>
      have hmasked : hd.masked = true := hkey ▸ isSome_of_getD_ne hne
      exact ⟨rfl, .inr ⟨runsDecode_of_isDecoding hi, (frameWord_masked ..).trans hmasked⟩⟩
  | encode fop fin msk hi h =>
    cases h with
    | failed => exact absurd rfl hne
    | ok p =>
      have hmsk : msk = true := encodeKey_isSome msk s ▸ isSome_of_getD_ne hne
      exact ⟨rfl, .inl ⟨fop, fin, hmsk ▸ hi⟩⟩
  | mask _ h => cases h <;> exact absurd rfl hne
  | validate _ h => cases h <;> exact absurd rfl hne
  | clear _ h => exact absurd (h ▸ rfl) hne
  | illegal _ _ h => exact absurd (h ▸ rfl) hne

/-! ## BUF -/

/-- The memory frame of one instruction: what it stored lies in the destination region, and every other address reads as
before. -/
def StoresOnly (i : Instr) (s t : State) : Prop :=
  storedBytes i t ≤ s.dstCap.toNat ∧
    ∀ a, (a < s.dstAddr.toNat ∨ s.dstAddr.toNat + storedBytes i t ≤ a) → t.buf.read a = s.buf.read a

theorem storedBytes_of_not_ok {t : State} (i : Instr) (h : t.status ≠ 0x00000001) : storedBytes i t = 0 := if_pos h

theorem storedBytes_of_isDecoding {i : Instr} {t : State} (hi : isDecoding i = true) (h : t.status = 0x00000001) :
    storedBytes i t = t.rPaylenHi.toNat * 0x100000000 + t.rPaylenLo.toNat := by
  cases i <;> simp_all [storedBytes, isDecoding]

theorem toNat_lowWord {n : Nat} (h : n < 0x100000000) : (lowWord n).toNat = n := by
  rw [lowWord, BitVec.toNat_ofNat, Nat.mod_eq_of_lt h]

theorem toNat_highWord {n : Nat} (h : n < 0x100000000) : (highWord n).toNat = 0 := by
  rw [highWord, Nat.div_eq_of_lt h]
  rfl

theorem StoresOnly.nothing {i : Instr} {s t : State} (hn : storedBytes i t = 0) (hbuf : t.buf = s.buf) :
    StoresOnly i s t :=
  ⟨hn ▸ Nat.zero_le _, fun _ _ => by rw [hbuf]⟩

theorem StoresOnly.failed (i : Instr) (s : State) (c : Cause) (frame : Word) (paylen consumed needed : Nat) :
    StoresOnly i s (failed s c frame paylen consumed needed) :=
  .nothing (storedBytes_of_not_ok i (statusOf_ne_ok c)) rfl

theorem StoresOnly.succeeded {i : Instr} {s : State} {frame : Word} {paylen consumed draws : Nat} {stored : List Byte}
    {key : Option Word} (hn : storedBytes i (succeeded s frame paylen consumed stored key draws) = stored.length)
    (hfit : stored.length ≤ s.dstCap.toNat) :
    StoresOnly i s (succeeded s frame paylen consumed stored key draws) :=
  ⟨hn ▸ hfit, fun a ha => Memory.read_writeBytes_outside stored s.buf _ a (hn ▸ ha)⟩

/-- Settles O17: an ending that is not OK stores nothing, and an OK one exactly the bytes its length register counts. -/
theorem memoryFrame : Obligations.MemoryFrame := by
  intro i s t e
  have hcap : s.dstCap.toNat < 0x100000000 := s.dstCap.isLt
  change StoresOnly i s t
  cases exec_ends e with
  | decode hi h =>
    cases h with
    | early | header | length => exact .failed ..
    | ok hd key p _ hfit =>
      have hlt : p.length < 0x100000000 := Nat.lt_of_le_of_lt hfit hcap
      refine .succeeded ((storedBytes_of_isDecoding hi rfl).trans ?_) (by simpa using hfit)
      simp [Machine.succeeded, toNat_lowWord hlt, toNat_highWord hlt]
  | encode fop fin msk hi h =>
    subst hi
    cases h with
    | failed => exact .failed ..
    | ok p _ _ hfit =>
      have hlen : (encodeBytes fop fin (encodeKey msk s).1 p).length = encodeHdrLen msk p.length + p.length := by
        rw [encodeBytes_length, encodeKey_isSome]
      refine .succeeded (Eq.trans ?_ hlen.symm) (hlen ▸ hfit)
      exact toNat_lowWord (Nat.lt_of_le_of_lt hfit hcap)
  | mask hi h =>
    subst hi
    cases h with
    | failed => exact .failed ..
    | ok p _ _ hfit =>
      refine .succeeded (Eq.trans ?_ (xorMask_length ..).symm) (by simpa using hfit)
      exact toNat_lowWord (Nat.lt_of_le_of_lt hfit hcap)
  | validate hi h =>
    subst hi
    cases h with
    | refused | incomplete | judged => exact .failed ..
    | accepted => exact .succeeded rfl (Nat.zero_le _)
  | clear _ h => exact h ▸ .nothing (storedBytes_of_not_ok i (by simp)) rfl
  | illegal _ _ h => exact h ▸ .failed ..

/-! ## The result registers -/

theorem frameLegal_of_cleared {t : State} (hf : t.rFrame = 0) (hlo : t.rPaylenLo = 0) (hhi : t.rPaylenHi = 0) :
    FrameLegal t := by
  simp [FrameLegal, hf, hlo, hhi]

/-- A header word is legal where the length is 0 or LV is set. -/
theorem frameLegal_of_frameWord {t : State} {op : BitVec 4} {rsv : BitVec 3} {fin masked lv : Bool} {len7 : BitVec 7}
    {n : Nat} (hf : t.rFrame = frameWord op rsv fin masked len7 n lv)
    (hlv : lv = false → t.rPaylenLo = 0 ∧ t.rPaylenHi = 0) : FrameLegal t := by
  refine ⟨hf ▸ frameWord_and_reserved .., fun h => ?_, fun h => hlv ?_⟩
  · simp [hf] at h
  · simpa [hf] using h

/-- After a cause, R_CONSUMED is legal where it is 0 or the handshake failed, and R_NEED where it is 0 or more is needed. -/
theorem countsLegal_failed {s : State} {c : Cause} {frame : Word} {paylen consumed needed : Nat}
    (hc : causeResult c ≠ .handshakeFailed → consumed = 0) (hn : causeResult c ≠ .needMore → needed = 0) :
    CountsLegal (failed s c frame paylen consumed needed) := by
  have hres : statusResult (failed s c frame paylen consumed needed).status = resultCode (causeResult c) :=
    statusResult_statusOf c
  rw [CountsLegal, hres]
  refine ⟨fun _ h => ?_, fun h => ?_⟩
  · obtain rfl := hc fun e => h (e ▸ rfl)
    rfl
  · obtain rfl := hn fun e => h (e ▸ rfl)
    exact ⟨rfl, rfl⟩

theorem countsLegal_succeeded (s : State) (frame : Word) (paylen consumed : Nat) (stored : List Byte)
    (key : Option Word) (draws : Nat) : CountsLegal (succeeded s frame paylen consumed stored key draws) :=
  ⟨fun h => absurd rfl h, fun _ => ⟨rfl, rfl⟩⟩

theorem DecodeEnds.resultsLegal {s t : State} (h : DecodeEnds s t) : FrameLegal t ∧ CountsLegal t := by
  cases h with
  | early c n hn => exact ⟨frameLegal_of_cleared rfl rfl rfl, countsLegal_failed (fun _ => rfl) (by grind)⟩
  | header h c n hn =>
    exact ⟨frameLegal_of_frameWord rfl fun _ => ⟨rfl, rfl⟩, countsLegal_failed (fun _ => rfl) (by grind)⟩
  | length h l c n hn => exact ⟨frameLegal_of_frameWord rfl nofun, countsLegal_failed (fun _ => rfl) (by grind)⟩
  | ok => exact ⟨frameLegal_of_frameWord rfl nofun, countsLegal_succeeded ..⟩

theorem EncodeEnds.resultsLegal {fop : BitVec 4} {fin msk : Bool} {s t : State} (h : EncodeEnds fop fin msk s t) :
    FrameLegal t ∧ CountsLegal t := by
  cases h with
  | failed => exact ⟨frameLegal_of_cleared rfl rfl rfl, countsLegal_failed (fun _ => rfl) fun _ => rfl⟩
  | ok => exact ⟨frameLegal_of_frameWord rfl nofun, countsLegal_succeeded ..⟩

theorem MaskEnds.resultsLegal {s t : State} (h : MaskEnds s t) : FrameLegal t ∧ CountsLegal t := by
  cases h with
  | failed => exact ⟨frameLegal_of_cleared rfl rfl rfl, countsLegal_failed (fun _ => rfl) fun _ => rfl⟩
  | ok => exact ⟨frameLegal_of_cleared rfl rfl rfl, countsLegal_succeeded ..⟩

theorem ValidateEnds.resultsLegal {s t : State} (h : ValidateEnds s t) : FrameLegal t ∧ CountsLegal t := by
  cases h with
  | refused => exact ⟨frameLegal_of_cleared rfl rfl rfl, countsLegal_failed (fun _ => rfl) fun _ => rfl⟩
  | incomplete => exact ⟨frameLegal_of_cleared rfl rfl rfl, countsLegal_failed (fun _ => rfl) fun h => absurd rfl h⟩
  | judged c b hc => exact ⟨frameLegal_of_cleared rfl rfl rfl, countsLegal_failed (fun h => absurd hc h) fun _ => rfl⟩
  | accepted => exact ⟨frameLegal_of_cleared rfl rfl rfl, countsLegal_succeeded ..⟩

/-- Every instruction leaves legal result registers, whatever they were (10_state.md R41, R42, R44, R45). -/
theorem exec_resultsLegal {i : Instr} {s t : State} (h : exec i s = .next t) : FrameLegal t ∧ CountsLegal t := by
  cases exec_ends h with
  | decode _ h => exact h.resultsLegal
  | encode _ _ _ _ h => exact h.resultsLegal
  | mask _ h => exact h.resultsLegal
  | validate _ h => exact h.resultsLegal
  | clear _ h => exact h ▸ ⟨frameLegal_of_cleared rfl rfl rfl, fun _ _ => rfl, fun _ => ⟨rfl, rfl⟩⟩
  | illegal _ _ h => exact h ▸ ⟨frameLegal_of_cleared rfl rfl rfl, countsLegal_failed (fun _ => rfl) fun _ => rfl⟩

/-- STATUS and the six result registers hold the same values in both states. -/
structure SameOutcome (s t : State) : Prop where
  status : t.status = s.status
  rFrame : t.rFrame = s.rFrame
  rPaylenLo : t.rPaylenLo = s.rPaylenLo
  rPaylenHi : t.rPaylenHi = s.rPaylenHi
  rConsumed : t.rConsumed = s.rConsumed
  rNeedLo : t.rNeedLo = s.rNeedLo
  rNeedHi : t.rNeedHi = s.rNeedHi

theorem SameOutcome.frameLegal {s t : State} (h : SameOutcome s t) (hs : FrameLegal s) : FrameLegal t := by
  simpa only [FrameLegal, h.rFrame, h.rPaylenLo, h.rPaylenHi] using hs

theorem SameOutcome.countsLegal {s t : State} (h : SameOutcome s t) (hs : CountsLegal s) : CountsLegal t := by
  simpa only [CountsLegal, h.status, h.rConsumed, h.rNeedLo, h.rNeedHi] using hs

theorem State.writeReg_sameOutcome (s : State) (r : Reg) (v : Word) : SameOutcome s (s.writeReg r v) := by
  cases r <;> exact ⟨rfl, rfl, rfl, rfl, rfl, rfl, rfl⟩

/-- The result registers after a transaction are those of a command, those before it, or those of reset. -/
theorem ServedBy.outcome_cases {op : HostOp} {s t : State} (h : ServedBy op s t) :
    (∃ i, exec i s = .next t) ∨ SameOutcome s t ∨ t = resetState s := by
  cases h with
  | command i h => exact .inl ⟨i, h⟩
  | register _ r v h => exact .inr (.inl (h ▸ s.writeReg_sameOutcome r v))
  | answer r h => exact .inr (.inl (h ▸ ⟨rfl, rfl, rfl, rfl, rfl, rfl, rfl⟩))
  | store a bs h => exact .inr (.inl (h ▸ ⟨rfl, rfl, rfl, rfl, rfl, rfl, rfl⟩))
  | reset _ h => exact .inr (.inr h)

theorem ServedBy.resultsLegal {op : HostOp} {s t : State} (h : ServedBy op s t) :
    (FrameLegal s → FrameLegal t) ∧ (CountsLegal s → CountsLegal t) := by
  obtain ⟨i, h⟩ | h | rfl := h.outcome_cases
  · obtain ⟨hframe, hcounts⟩ := exec_resultsLegal h
    exact ⟨fun _ => hframe, fun _ => hcounts⟩
  · exact ⟨h.frameLegal, h.countsLegal⟩
  · exact ⟨fun _ => frameLegal_of_cleared rfl rfl rfl, fun _ => ⟨fun _ _ => rfl, fun _ => ⟨rfl, rfl⟩⟩⟩

/-- Settles O59: a command leaves legal result registers, and any other transaction keeps them or clears them. -/
theorem stepKeepsResultsLegal : Obligations.StepKeepsResultsLegal := by
  refine ⟨fun s => Iff.rfl, fun s t h => ?_⟩
  obtain ⟨-, rfl⟩ | ⟨op, rest, -, h⟩ := step_next h
  · exact ⟨id, id⟩
  · exact (serve_servedBy h).resultsLegal

end Sys2Proof.Machine
end

section
/-!
PROOFS. BUF and the host's transactions (20_memory.md): a read is the last write, every step keeps BUF in its canonical form
and below BUF_SIZE, the buffer transactions of the host and the two windows of a platform.
-/

namespace Sys2Proof.Machine

open Sys2Proof.Stated Sys2Proof.Safety

/-! ## BUF stays legal -/

theorem bufLegal_of_writeBytes {s t : State} {a : Nat} {bs : List Byte} (hs : BufLegal s) (hcfg : t.cfg = s.cfg)
    (hbuf : t.buf = s.buf.writeBytes a bs) (hin : a + bs.length ≤ s.cfg.bufSize) : BufLegal t := by
  obtain ⟨hwf, hbelow⟩ := hs
  rw [BufLegal, hbuf, hcfg]
  exact ⟨Memory.wf_writeBytes bs s.buf a hwf, Memory.below_writeBytes bs s.buf a hin hbelow⟩

theorem bufLegal_of_buf_eq {s t : State} (hs : BufLegal s) (hcfg : t.cfg = s.cfg) (hbuf : t.buf = s.buf) : BufLegal t := by
  rwa [BufLegal, hbuf, hcfg]

/-- A command stores nothing, or bytes that end below BUF_SIZE: the prologue has checked the whole destination region, and
the bytes fit into it. -/
theorem exec_stores_below {i : Instr} {s t : State} (e : exec i s = .next t) :
    t.buf = s.buf ∨
      ∃ bs, t.buf = s.buf.writeBytes s.dstAddr.toNat bs ∧ s.dstAddr.toNat + bs.length ≤ s.cfg.bufSize := by
  cases exec_ends e with
  | decode _ h =>
    cases h with
    | early | header | length => exact .inl rfl
    | ok hd key p hin hfit => exact .inr ⟨maskedWith key p, rfl, by rw [maskedWith_length]; omega⟩
  | encode fop fin msk _ h =>
    cases h with
    | failed => exact .inl rfl
    | ok p _ hin hfit =>
      exact .inr ⟨encodeBytes fop fin (encodeKey msk s).1 p, rfl, by rw [encodeBytes_length, encodeKey_isSome]; omega⟩
  | mask _ h =>
    cases h with
    | failed => exact .inl rfl
    | ok p _ hin hfit => exact .inr ⟨xorMask s.maskKey p, rfl, by rw [xorMask_length]; omega⟩
  | validate _ h => cases h <;> exact .inl rfl
  | clear _ h => exact .inl (h ▸ rfl)
  | illegal _ _ h => exact .inl (h ▸ rfl)

/-- Every transaction keeps BUF legal: a command and a host write store below BUF_SIZE, reset empties BUF, and the others
leave it. -/
theorem serve_keeps_bufLegal {op : HostOp} {s t : State} (hs : BufLegal s) (h : serve op s = .next t) : BufLegal t := by
  cases serve_served h with
  | command i h =>
    have hcfg : t.cfg = s.cfg := (exec_leaves h).cfg_eq
    obtain hbuf | ⟨bs, hbuf, hin⟩ := exec_stores_below h
    · exact bufLegal_of_buf_eq hs hcfg hbuf
    · exact bufLegal_of_writeBytes hs hcfg hbuf hin
  | register r v h => exact bufLegal_of_buf_eq hs (by simp [h]) (by simp [h])
  | answer r h => exact bufLegal_of_buf_eq hs (by rw [h]) (by rw [h])
  | store a bs hin h => exact bufLegal_of_writeBytes hs (by simp [h]) (by simp [h]) hin
  | reset h => exact h ▸ ⟨rfl, rfl⟩

/-- Settles O57: a step is idle or serves a transaction, and every transaction keeps BUF legal. -/
theorem stepKeepsBufLegal : Obligations.StepKeepsBufLegal := by
  intro s t hs h
  obtain ⟨-, rfl⟩ | ⟨op, rest, -, h⟩ := step_next h
  · exact hs
  · exact serve_keeps_bufLegal (s := s.taken rest) hs h

/-! ## Read after write -/

theorem Memory.wf_iff_isChain (m : Memory) : m.wf = true ↔ m.IsChain fun c d => c.1 < d.1 := by
  induction m with
  | nil => simp [Memory.wf]
  | cons c m ih => rw [Memory.wf_cons, List.isChain_cons, ← ih]

/-- The canonical form is that of a list whose addresses strictly rise (20_memory.md R60). -/
theorem Memory.wf_iff_pairwise (m : Memory) : m.wf = true ↔ m.Pairwise fun c d => c.1 < d.1 := by
  have : IsTrans Host.Cell fun c d => c.1 < d.1 := ⟨fun _ _ _ => Nat.lt_trans⟩
  rw [Memory.wf_iff_isChain, List.isChain_iff_pairwise]

theorem Memory.below_iff (n : Nat) (m : Memory) : m.below n = true ↔ ∀ c ∈ m, c.1 < n := by
  simp [Memory.below]

/-- Settles O55, from the laws of one write and of a run of writes. -/
theorem bufferReadsTheLastWrite : Obligations.BufferReadsTheLastWrite :=
  ⟨fun m => ⟨m.wf_iff_pairwise, fun n => m.below_iff n⟩,
    fun m a b => ⟨m.read_write_same a b, fun _ hx => m.read_write_other b hx⟩,
    fun m a bs => ⟨m.read_writeBytes_inside bs a, m.read_writeBytes_outside bs a, m.wf_writeBytes bs a⟩⟩

/-! ## The queue -/

@[simp] theorem State.writeReg_pending (s : State) (r : Reg) (v : Word) : (s.writeReg r v).pending = s.pending := by
  cases r <;> rfl

/-- No transaction touches those still to come. -/
theorem serve_keeps_pending {op : HostOp} {s t : State} (h : serve op s = .next t) : t.pending = s.pending := by
  cases serve_served h with
  | command i h => exact (exec_leaves h).pending_eq
  | register r v h => simp [h]
  | answer r h => rw [h]
  | store a bs _ h => simp [h]
  | reset h => rw [h]; rfl

/-- Settles O9: a step serves the oldest transaction in the state without it, and serving keeps the rest of the queue. -/
theorem transactionsAreServedInOrder : Obligations.TransactionsAreServedInOrder := by
  intro s
  refine ⟨fun hp => by simp [step, serveNext, hp], fun op rest hp => ⟨step_of_pending hp, rfl⟩, fun t h => ?_⟩
  obtain ⟨hp, rfl⟩ | ⟨op, rest, hp, h⟩ := step_next h
  · exact ⟨fun _ => rfl, fun hne => absurd hp hne⟩
  · have hrest : t.pending = rest := serve_keeps_pending h
    simp [hp, hrest]

/-! ## The buffer transactions of the host -/

/-- The lanes of a word put together again are the word (20_memory.md R62). -/
theorem laneWord_laneBytes (v : Word) : laneWord (laneBytes v) = v := by
  apply BitVec.eq_of_toNat_eq
  simp only [laneWord, laneBytes, beValue, List.reverse_cons, List.reverse_nil, List.nil_append, List.cons_append,
    List.foldl_cons, List.foldl_nil, BitVec.extractLsb'_toNat, BitVec.toNat_ofNat, Nat.shiftRight_eq_div_pow]
  omega

/-- Settles O52: each transaction is one test of the address, then its write or its read. -/
theorem hostBufferAccess : Obligations.HostBufferAccess := by
  refine fun s a b v => ⟨fun hin => ⟨if_pos hin, fun hread => ?_⟩, fun hout => ?_,
    fun hal hin => ⟨?_, fun h0 h1 h2 h3 => ?_⟩, fun hal hout => ?_, fun hal => ⟨if_pos hal, if_pos hal⟩⟩
  · simp [serve, hostBufRead, hin, State.readByte_ok.2 hread]
  · have hout : ¬ a < s.cfg.bufSize := Nat.not_lt.2 hout
    exact ⟨if_neg hout, if_neg hout⟩
  · exact hostBufWriteWide_next.2 ⟨hal, hin, rfl⟩
  · have hread : s.readBytes a 4 = .ok (laneBytes v) := State.readBytes_ok.2 ⟨rfl, fun
      | 0, _ => h0
      | 1, _ => h1
      | 2, _ => h2
      | 3, _ => h3⟩
    exact hostBufReadWide_next.2 ⟨hal, hin, laneBytes v, hread, by rw [laneWord_laneBytes]⟩
  · have hout : ¬ a + 4 ≤ s.cfg.bufSize := Nat.not_le.2 hout
    simp [serve, hostBufWriteWide, hostBufReadWide, hal, hout]

/-! ## The windows of a platform -/

/-- An address in the register window lies there, wherever the buffer window is. -/
theorem windowOf_reg (c : Config) {off : Nat} (h : off < 0x100) : windowOf c (c.regBase + off) = .reg off := by
  rw [windowOf, if_pos (by omega), Nat.add_sub_cancel_left]

theorem windowOf_buf {c : Config} {a : Nat}
    (hsep : c.bufBase + c.bufSize ≤ c.regBase ∨ c.regBase + 0x100 ≤ c.bufBase) (h : a < c.bufSize) :
    windowOf c (c.bufBase + a) = .buf a := by
  rw [windowOf, if_neg (by omega), if_pos (by omega), Nat.add_sub_cancel_left]

theorem windowOf_none {c : Config} {addr : Nat} (hreg : addr < c.regBase ∨ c.regBase + 0x100 ≤ addr)
    (hbuf : addr < c.bufBase ∨ c.bufBase + c.bufSize ≤ addr) : windowOf c addr = .none := by
  rw [windowOf, if_neg (by omega), if_neg (by omega)]

/-- Settles O54: the window of the address decides which transaction a platform access is. -/
theorem platformWindows : Obligations.PlatformWindows := by
  refine fun s hsep => ⟨fun off hoff bits => ?_, fun a ha => ?_, fun addr hreg hbuf bits => ?_⟩
  · simp [serve, platformWrite, platformRead, windowOf_reg s.cfg hoff]
  · simp +contextual [serve, platformWrite, platformRead, windowOf_buf hsep ha]
  · simp [serve, platformWrite, platformRead, windowOf_none hreg hbuf]

end Sys2Proof.Machine
end

section
/-!
PROOFS. The model faults of 20_memory.md R63: what a run of reads answers, how far each command gets where its checks pass,
and from these the fault at the first unwritten byte of every read.
-/

namespace Sys2Proof.Machine

open Sys2Proof.Stated

/-! ## Runs of reads -/

section
variable {m : Memory} {s : State} {a n : Nat} {b : Byte} {bs p : List Byte}

theorem bytesAt_cons : BytesAt m a (b :: bs) ↔ m.read a = some b ∧ BytesAt m (a + 1) bs := by
  refine ⟨fun h => ⟨h 0 (Nat.zero_lt_succ _), fun i hi => ?_⟩, fun ⟨hb, hbs⟩ i hi => ?_⟩
  · simpa [Nat.add_assoc, Nat.add_comm 1 i] using h (i + 1) (Nat.succ_lt_succ hi)
  · cases i with
    | zero => exact hb
    | succ i => simpa [Nat.add_assoc, Nat.add_comm 1 i] using hbs i (Nat.lt_of_succ_lt_succ hi)

theorem unwrittenAfter_cons :
    UnwrittenAfter m a (n + 1) (b :: p) ↔ m.read a = some b ∧ UnwrittenAfter m (a + 1) n p := by
  simp only [UnwrittenAfter, bytesAt_cons, List.length_cons, Nat.add_lt_add_iff_right, Nat.add_assoc, Nat.add_comm 1]
  tauto

theorem State.readByte_unwritten (h : s.buf.read a = none) : s.readByte a = .error (.unwrittenByte a) := by
  simp [State.readByte, h]

/-- A run of reads stops at the first unwritten byte. -/
theorem State.readBytes_unwritten (h : UnwrittenAfter s.buf a n p) :
    s.readBytes a n = .error (.unwrittenByte (a + p.length)) := by
  induction n generalizing a p with
  | zero => exact absurd h.1 (Nat.not_lt_zero _)
  | succ n ih =>
    cases p with
    | nil =>
      obtain ⟨-, -, hnone⟩ := h
      have hread : s.readByte a = .error (.unwrittenByte a) := State.readByte_unwritten hnone
      simp [State.readBytes, hread]
    | cons b p =>
      obtain ⟨hb, hp⟩ := unwrittenAfter_cons.1 h
      simp [State.readBytes, State.readByte_ok.2 hb, ih hp, Nat.add_assoc, Nat.add_comm 1]

theorem State.readBytes_bytesAt (h : BytesAt s.buf a bs) (hn : bs.length = n) : s.readBytes a n = .ok bs :=
  State.readBytes_ok.2 ⟨hn, h⟩

theorem State.writtenPrefix_unwritten (h : UnwrittenAfter s.buf a n p) : s.writtenPrefix a n = p := by
  induction n generalizing a p with
  | zero => exact absurd h.1 (Nat.not_lt_zero _)
  | succ n ih =>
    cases p with
    | nil =>
      obtain ⟨-, -, hnone⟩ := h
      have hread : s.buf.read a = none := hnone
      simp [State.writtenPrefix, hread]
    | cons b p =>
      obtain ⟨hb, hp⟩ := unwrittenAfter_cons.1 h
      simp [State.writtenPrefix, hb, ih hp]

/-- Bytes that are written begin what `writtenPrefix` collects. -/
theorem State.writtenPrefix_bytesAt (h : BytesAt s.buf a bs) (hn : bs.length ≤ n) :
    ∃ rest, s.writtenPrefix a n = bs ++ rest := by
  induction bs generalizing a n with
  | nil => exact ⟨_, rfl⟩
  | cons b bs ih =>
    cases n with
    | zero => exact absurd hn (Nat.not_succ_le_zero _)
    | succ n =>
      obtain ⟨hb, hbs⟩ := bytesAt_cons.1 h
      obtain ⟨rest, hrest⟩ := ih hbs (Nat.le_of_succ_le_succ hn)
      exact ⟨rest, by simp [State.writtenPrefix, hb, hrest]⟩

end

/-! ## Big-endian values -/

theorem bigEndian_cons (b : Byte) (bs : List Byte) :
    bigEndian (b :: bs) = b.toNat * 256 ^ bs.length + bigEndian bs := by
  simp [bigEndian, List.mapIdx_cons, Nat.sub_sub, Nat.add_comm 1]

theorem foldl_beValue (bs : List Byte) (acc : Nat) :
    bs.foldl (fun acc b => acc * 256 + b.toNat) acc = acc * 256 ^ bs.length + bigEndian bs := by
  induction bs generalizing acc with
  | nil => simp [bigEndian]
  | cons b bs ih =>
    rw [List.foldl_cons, ih, bigEndian_cons, List.length_cons]
    ring

/-- `beValue` is the sum of 00_scope.md R11. -/
theorem beValue_eq_bigEndian (bs : List Byte) : beValue bs = bigEndian bs :=
  (foldl_beValue bs 0).trans (by simp)

/-! ## The prologues where their checks pass -/

section
variable {s : State} {body : State → Out}

theorem overlap_eq_false (h : ¬ Overlapping s) : overlap (srcRegion s) (dstRegion s) = false := decide_eq_false h

theorem withSrcDst_pass (h : RegionsPass s) : withSrcDst body s.clearResults = body s.clearResults := by
  obtain ⟨hsrc, hdst, hovl⟩ := h
  exact withRegions_pass (inRange_true.2 hsrc) (inRange_true.2 hdst) (overlap_eq_false hovl)

theorem withSrcDstInPlace_pass (h : MaskRegionsPass s) : withSrcDstInPlace body s.clearResults = body s.clearResults := by
  obtain ⟨hsrc, hdst, hovl⟩ := h
  refine withRegions_pass (inRange_true.2 hsrc) (inRange_true.2 hdst) ?_
  obtain hovl | heq := hovl
  · simp [overlap_eq_false hovl]
  · simp [heq]

theorem withSrcAux_pass (hsrc : SrcFits s) (haux : AuxFits s) : withSrcAux body s.clearResults = body s.clearResults :=
  withRegions_pass (inRange_true.2 hsrc) (inRange_true.2 haux) rfl

end

/-! ## The opcode classes -/

theorem isReserved_eq_false_iff : ∀ op : BitVec 4, isReserved op = false ↔ GoodOpcode op := by decide

theorem isControl_iff_of_good : ∀ op : BitVec 4, GoodOpcode op → (isControl op = true ↔ ControlOpcode op) := by decide

/-! ## DECODE, step by step -/

section
variable {s : State} {h : FrameHeader} {b0 b1 : Byte} {ext k : List Byte} {key : Option Word} {l : Nat}

/-- Step 1 of DECODE: the regions pass and two bytes are present, so bytes 0 and 1 are read. -/
theorem exec_decode_of_twoBytes (hr : RegionsPass s) (hlen : 2 ≤ s.srcLen.toNat) :
    exec .decode s = reading (s.readSrc 0) fun b0 => reading (s.readSrc 1) fun b1 =>
      decodeHeader (headerOf b0 b1) s.clearResults := by
  have hlen : ¬ s.clearResults.srcLen.toNat < 2 := Nat.not_lt.2 hlen
  calc exec .decode s = decodeBody (s.readSrc 0) (s.readSrc 1) s.clearResults := withSrcDst_pass hr
    _ = _ := if_neg hlen

theorem exec_decode_of_firstBytes (hr : RegionsPass s) (hb : FirstBytes s b0 b1) :
    exec .decode s = decodeHeader (headerOf b0 b1) s.clearResults := by
  obtain ⟨hlen, h0, h1⟩ := hb
  have h0 : s.readSrc 0 = .ok b0 := State.readByte_ok.2 h0
  have h1 : s.readSrc 1 = .ok b1 := State.readByte_ok.2 h1
  rw [exec_decode_of_twoBytes hr hlen, h0, reading_ok, h1, reading_ok]

theorem headerCheck_eq_none (ha : HeaderAccepted s h) : headerCheck (ctrlClient s.ctrl) h = none := by
  obtain ⟨hrsv, hgood, hmasked, hctl⟩ := ha
  have hres : ¬ isReserved h.op = true := by simp [(isReserved_eq_false_iff h.op).2 hgood]
  have hcontrol : isControl h.op = true → h.fin = true ∧ h.len7.toNat ≤ 125 :=
    fun hc => hctl ((isControl_iff_of_good h.op hgood).1 hc)
  rw [headerCheck, if_neg (not_not.2 hrsv), if_neg hres, if_neg fun ⟨hc, hm⟩ => by simp [hmasked hc] at hm,
    if_neg fun ⟨hc, hf⟩ => by simp [hcontrol hc] at hf, if_neg fun ⟨hc, hl⟩ => Nat.not_lt.2 (hcontrol hc).2 hl]

theorem decodeHeader_of_accepted (ha : HeaderAccepted s h) :
    decodeHeader h s.clearResults = decodeLength h (s.clearResults.setFrame (headerWord h false)) := by
  simp [decodeHeader, headerCheck_eq_none ha]

theorem extLen_of_short (h7 : h.len7.toNat ≤ 125) : extLen h.len7 = 0 := by
  have h126 : h.len7 ≠ 126 := fun e => absurd (e ▸ h7) (by decide)
  have h127 : h.len7 ≠ 127 := fun e => absurd (e ▸ h7) (by decide)
  rw [extLen, if_neg h126, if_neg h127]

/-- Step 3 of DECODE where there are extended bytes and they are present. -/
theorem decodeLength_of_extended (h7 : ¬ h.len7.toNat ≤ 125) (hfit : 2 + extLen h.len7 ≤ s.srcLen.toNat) :
    decodeLength h (s.clearResults.setFrame (headerWord h false))
      = reading ((s.clearResults.setFrame (headerWord h false)).readBytes (s.srcAddr.toNat + 2) (extLen h.len7)) fun e =>
        decodeKnownLength h (beValue e) (s.clearResults.setFrame (headerWord h false)) := by
  have hfit : ¬ (s.clearResults.setFrame (headerWord h false)).srcLen.toNat < 2 + extLen h.len7 := Nat.not_lt.2 hfit
  rw [decodeLength, if_neg h7, if_neg hfit]
  rfl

theorem decodeLength_of_present (hl : LengthPresent s h ext l) :
    decodeLength h (s.clearResults.setFrame (headerWord h false))
      = decodeKnownLength h l (s.clearResults.setFrame (headerWord h false)) := by
  obtain ⟨hext, hfit, hbytes, rfl⟩ := hl
  by_cases h7 : h.len7.toNat ≤ 125
  · rw [decodeLength, if_pos h7, wireLength, if_pos h7]
  · have hread : (s.clearResults.setFrame (headerWord h false)).readBytes (s.srcAddr.toNat + 2) (extLen h.len7) = .ok ext :=
      State.readBytes_bytesAt hbytes hext
    rw [decodeLength_of_extended h7 (hext ▸ hfit), hread, reading_ok, beValue_eq_bigEndian, wireLength, if_neg h7]

theorem lengthCheck_eq_none (ha : LengthAccepted s h l) : lengthCheck (ctrlStrictLen s.ctrl) h.len7 l = none := by
  obtain ⟨hmsb, hstrict⟩ := ha
  have hminimal : ¬ (ctrlStrictLen s.ctrl = true ∧ ((h.len7 = 126 ∧ l < 126) ∨ (h.len7 = 127 ∧ l < 65536))) := by
    rintro ⟨hs, ⟨h7, hl⟩ | ⟨h7, hl⟩⟩
    · exact Nat.not_lt.2 ((hstrict hs).1 h7) hl
    · exact Nat.not_lt.2 ((hstrict hs).2 h7) hl
  rw [lengthCheck, if_neg fun ⟨h7, hl⟩ => Nat.not_lt.2 hl (hmsb h7), if_neg hminimal]

theorem decodeKnownLength_of_accepted (ha : LengthAccepted s h l) :
    decodeKnownLength h l (s.clearResults.setFrame (headerWord h false)) = decodeKey h l (measured s h l) := by
  simp [decodeKnownLength, lengthCheck_eq_none ha, measured]

/-- Steps 1 to 3 of DECODE where every check passes: what is left is the key and the payload. -/
theorem exec_decode_of_lengthAccepted (hr : RegionsPass s) (hb : FirstBytes s b0 b1)
    (hh : HeaderAccepted s (headerOf b0 b1)) (hl : LengthPresent s (headerOf b0 b1) ext l)
    (ha : LengthAccepted s (headerOf b0 b1) l) :
    exec .decode s = decodeKey (headerOf b0 b1) l (measured s (headerOf b0 b1) l) := by
  rw [exec_decode_of_firstBytes hr hb, decodeHeader_of_accepted hh, decodeLength_of_present hl,
    decodeKnownLength_of_accepted ha]

theorem decodeKey_of_unmasked (hm : h.masked = false) :
    decodeKey h l (measured s h l) = decodePayload h l none (measured s h l) := if_pos hm

/-- Step 4 of DECODE on a masked frame: the key is what reading its four bytes gives. -/
theorem decodeKey_of_masked (hm : h.masked = true) (hfit : frameHdrLen h ≤ s.srcLen.toNat) :
    decodeKey h l (measured s h l) = reading ((measured s h l).readBytes (s.srcAddr.toNat + 2 + extLen h.len7) 4)
      fun k => decodePayload h l (some (keyWord k)) (measured s h l) := by
  have hfit : ¬ (measured s h l).srcLen.toNat < frameHdrLen h := Nat.not_lt.2 hfit
  rw [decodeKey, if_neg (by simp [hm]), if_neg hfit]
  rfl

/-- Step 5 of DECODE where the frame is present and its payload fits. -/
theorem decodePayload_of_fits (hsrc : frameHdrLen h + l ≤ s.srcLen.toNat) (hdst : l ≤ s.dstCap.toNat) :
    decodePayload h l key (measured s h l) = reading ((measured s h l).readBytes (s.srcAddr.toNat + frameHdrLen h) l)
      fun p => finishOk ((((measured s h l).writeBuf s.dstAddr.toNat (maskedWith key p)).keepKey key).setConsumed
        (frameHdrLen h + l)) := by
  have hsrc : ¬ (measured s h l).srcLen.toNat < frameHdrLen h + l := Nat.not_lt.2 hsrc
  have hdst : ¬ (measured s h l).dstCap.toNat < l := Nat.not_lt.2 hdst
  rw [decodePayload, if_neg hsrc, if_neg hdst]
  rfl

end

/-! ## ENCODE and MASK where their checks pass -/

section
variable {s : State} {fop : BitVec 4} {fin msk : Bool}

/-- The STATUS words of 42_encode.md R172 are those of the causes ENCODE checks for, in the same order. -/
theorem argumentStatus_eq (client : Bool) (l : Nat) :
    argumentStatus client fop fin msk l = (encodeCheck client fop fin msk l).map statusOf := by
  by_cases hgood : GoodOpcode fop
  · have hres : isReserved fop = false := (isReserved_eq_false_iff fop).2 hgood
    simp only [argumentStatus, encodeCheck, hgood, not_true, hres, isControl_iff_of_good fop hgood, Bool.false_eq_true,
      if_false]
    split_ifs <;> rfl
  · have hres : isReserved fop = true := by
      rwa [← Bool.not_eq_false, isReserved_eq_false_iff]
    rw [argumentStatus, encodeCheck, if_pos hgood, if_pos hres]
    rfl

/-- The header length of ENCODE is that of 42_encode.md R181. -/
theorem encodeHdrLen_eq_lawHdrLen (l : Nat) : encodeHdrLen msk l = lawHdrLen l msk := by
  have hext : (encodeExt l).length = if 126 ≤ l ∧ l ≤ 65535 then 2 else if 65535 < l then 8 else 0 := by
    grind [encodeExt, beBytes_length]
  rw [encodeHdrLen, lawHdrLen, hext]

theorem exec_encode_of_fits (hr : RegionsPass s)
    (ha : argumentStatus (ctrlClient s.ctrl) fop fin msk s.srcLen.toNat = none)
    (hfit : lawHdrLen s.srcLen.toNat msk + s.srcLen.toNat ≤ s.dstCap.toNat) :
    exec (.encode fop fin msk) s = encodeWrite fop fin msk s.clearResults := by
  rw [argumentStatus_eq, Option.map_eq_none_iff] at ha
  have hfit : ¬ s.dstCap.toNat < encodeHdrLen msk s.srcLen.toNat + s.srcLen.toNat := by
    rw [encodeHdrLen_eq_lawHdrLen]
    exact Nat.not_lt.2 hfit
  calc exec (.encode fop fin msk) s = encodeBody fop fin msk s.clearResults := withSrcDst_pass hr
    _ = encodeWrite fop fin msk s.clearResults := by simp [encodeBody, ha, hfit]

theorem exec_mask_of_fits (hr : MaskRegionsPass s) (hfit : s.srcLen.toNat ≤ s.dstCap.toNat) :
    exec .mask s = reading (s.clearResults.readBytes s.srcAddr.toNat s.srcLen.toNat) fun p =>
      finishOk ((s.clearResults.writeBuf s.dstAddr.toNat (xorMask s.maskKey p)).setConsumed s.srcLen.toNat) := by
  have hfit : ¬ s.clearResults.dstCap.toNat < s.clearResults.srcLen.toNat := Nat.not_lt.2 hfit
  calc exec .mask s = maskBody s.clearResults := withSrcDstInPlace_pass hr
    _ = _ := if_neg hfit

end

/-! ## The header block of VALIDATE -/

section
variable {s : State} {b r p : List Byte}

theorem isPrefixOf_headerEnd (l : List Byte) : headerEnd.isPrefixOf l = true ↔ l.take 4 = terminator := by
  rw [List.isPrefixOf_iff_prefix, List.prefix_iff_eq_take, eq_comm]
  rfl

/-- Where no place of the list holds CR LF CR LF, none is found. -/
theorem findHeaderEnd_eq_none (h : ∀ i, i + 4 ≤ p.length → (p.drop i).take 4 ≠ terminator) :
    findHeaderEnd p = none := by
  induction p with
  | nil => rfl
  | cons x p ih =>
    have hhead : ¬ headerEnd.isPrefixOf (x :: p) = true := by
      rw [isPrefixOf_headerEnd]
      intro he
      have hlen : min 4 (x :: p).length = 4 := by rw [← List.length_take, he]; rfl
      exact h 0 (by omega) he
    rw [findHeaderEnd, if_neg hhead, ih fun i hi => h (i + 1) (by rw [List.length_cons]; omega)]
    rfl

/-- Where the first CR LF CR LF stands right after `b`, it is found there, whatever follows. -/
theorem findHeaderEnd_eq_some (h : ∀ i < b.length, ((b ++ terminator).drop i).take 4 ≠ terminator) :
    findHeaderEnd (b ++ terminator ++ r) = some b.length := by
  induction b with
  | nil => rfl
  | cons x b ih =>
    have hhead : ¬ headerEnd.isPrefixOf (x :: (b ++ terminator ++ r)) = true := by
      rw [isPrefixOf_headerEnd, show x :: (b ++ terminator ++ r) = (x :: (b ++ terminator)) ++ r from rfl,
        List.take_append_of_le_length (by simp)]
      exact h 0 (Nat.zero_lt_succ _)
    rw [List.cons_append, List.cons_append, findHeaderEnd, if_neg hhead, ih fun i hi => h (i + 1) (Nat.succ_lt_succ hi)]
    rfl

/-- The block that stands in the source region is the one VALIDATE takes (44_validate.md R202). -/
theorem headerBlock_of_present (h : BlockPresent s b) : headerBlock s = .ok (some b) := by
  obtain ⟨hfirst, hlen, hbytes⟩ := h
  obtain ⟨rest, hrest⟩ := State.writtenPrefix_bytesAt (n := s.srcLen.toNat) hbytes (by simpa using hlen)
  have hlen : ¬ s.srcLen.toNat < 4 := by omega
  rw [headerBlock, if_neg hlen]
  simp only [hrest, findHeaderEnd_eq_some hfirst]
  rw [List.append_assoc, List.take_left]

/-- Before a CR LF CR LF is seen, the first unwritten byte is the fault (log entry 8). -/
theorem headerBlock_unwritten (hlen : 4 ≤ s.srcLen.toNat) (h : UnwrittenAfter s.buf s.srcAddr.toNat s.srcLen.toNat p)
    (hnone : ∀ i, i + 4 ≤ p.length → (p.drop i).take 4 ≠ terminator) :
    headerBlock s = .error (.unwrittenByte (s.srcAddr.toNat + p.length)) := by
  have hlen : ¬ s.srcLen.toNat < 4 := Nat.not_lt.2 hlen
  have hshort : p.length < s.srcLen.toNat := h.1
  simp [headerBlock, hlen, State.writtenPrefix_unwritten h, findHeaderEnd_eq_none hnone, hshort]

/-- Past its argument check, VALIDATE judges the block it has found. -/
theorem exec_validate_of_block (h : ValidateRuns s) (hb : headerBlock s.clearResults = .ok (some b)) :
    exec .validate s = validateBlock b s.clearResults := by
  obtain ⟨hsrc, haux, hne⟩ := h
  calc exec .validate s = validateBody s.clearResults := withSrcAux_pass hsrc haux
    _ = validateBlock b s.clearResults := by simp [validateBody, hne, hb]

/-- Past its argument check, VALIDATE ends in the fault of its search for the block. -/
theorem exec_validate_of_fault {f : Fault} (h : ValidateRuns s) (hf : headerBlock s.clearResults = .error f) :
    exec .validate s = .fault f := by
  obtain ⟨hsrc, haux, hne⟩ := h
  calc exec .validate s = validateBody s.clearResults := withSrcAux_pass hsrc haux
    _ = .fault f := by simp [validateBody, hne, hf]

end

/-! ## The fault of each read -/

section
variable {s : State} {b0 b1 : Byte} {ext p : List Byte} {l : Nat}

theorem reading_unwritten {α : Type} {r : Except Fault α} {a : Nat} {k : α → Out} (h : r = .error (.unwrittenByte a)) :
    reading r k = .fault (.unwrittenByte a) := by
  rw [h, reading_error]

theorem hostBufRead_unwritten {a : Nat} (hin : a < s.cfg.bufSize) (h : s.buf.read a = none) :
    hostBufRead a s = .fault (.unwrittenByte a) := by
  rw [hostBufRead, if_pos hin]
  exact reading_unwritten (State.readByte_unwritten h)

theorem hostBufReadWide_unwritten {a : Nat} (hal : a % 4 = 0) (hin : a + 4 ≤ s.cfg.bufSize)
    (h : UnwrittenAfter s.buf a 4 p) : hostBufReadWide a s = .fault (.unwrittenByte (a + p.length)) := by
  rw [hostBufReadWide, if_neg (not_not.2 hal), if_pos hin]
  exact reading_unwritten (State.readBytes_unwritten h)

/-- DECODE at byte 0 or byte 1. -/
theorem exec_decode_unwritten_base (hr : RegionsPass s) (hlen : 2 ≤ s.srcLen.toNat)
    (h : UnwrittenAfter s.buf s.srcAddr.toNat 2 p) :
    exec .decode s = .fault (.unwrittenByte (s.srcAddr.toNat + p.length)) := by
  obtain ⟨hp, hbytes, hnone⟩ := h
  rw [exec_decode_of_twoBytes hr hlen]
  match p, hp with
  | [], _ => exact reading_unwritten (State.readByte_unwritten hnone)
  | [b], _ =>
    have h0 : s.readSrc 0 = .ok b := State.readByte_ok.2 (bytesAt_cons.1 hbytes).1
    rw [h0, reading_ok]
    exact reading_unwritten (State.readByte_unwritten hnone)

/-- DECODE at an extended length byte; there is one only where len7 is 126 or 127. -/
theorem exec_decode_unwritten_length (hr : RegionsPass s) (hb : FirstBytes s b0 b1)
    (hh : HeaderAccepted s (headerOf b0 b1)) (hfit : 2 + extLen (headerOf b0 b1).len7 ≤ s.srcLen.toNat)
    (h : UnwrittenAfter s.buf (s.srcAddr.toNat + 2) (extLen (headerOf b0 b1).len7) p) :
    exec .decode s = .fault (.unwrittenByte (s.srcAddr.toNat + 2 + p.length)) := by
  have h7 : ¬ (headerOf b0 b1).len7.toNat ≤ 125 := fun h7 =>
    absurd (extLen_of_short h7 ▸ h.1) (Nat.not_lt_zero _)
  rw [exec_decode_of_firstBytes hr hb, decodeHeader_of_accepted hh, decodeLength_of_extended h7 hfit]
  exact reading_unwritten (State.readBytes_unwritten h)

/-- DECODE at a key byte. -/
theorem exec_decode_unwritten_key (hr : RegionsPass s) (hb : FirstBytes s b0 b1)
    (hh : HeaderAccepted s (headerOf b0 b1)) (hl : LengthPresent s (headerOf b0 b1) ext l)
    (ha : LengthAccepted s (headerOf b0 b1) l) (hfit : frameHdrLen (headerOf b0 b1) ≤ s.srcLen.toNat)
    (hm : (headerOf b0 b1).masked = true)
    (h : UnwrittenAfter s.buf (s.srcAddr.toNat + 2 + extLen (headerOf b0 b1).len7) 4 p) :
    exec .decode s = .fault (.unwrittenByte (s.srcAddr.toNat + 2 + extLen (headerOf b0 b1).len7 + p.length)) := by
  rw [exec_decode_of_lengthAccepted hr hb hh hl ha, decodeKey_of_masked hm hfit]
  exact reading_unwritten (State.readBytes_unwritten h)

/-- Step 5 of DECODE at a payload byte, with a key or without. -/
theorem decodePayload_unwritten {h : FrameHeader} {key : Option Word} (hsrc : frameHdrLen h + l ≤ s.srcLen.toNat)
    (hdst : l ≤ s.dstCap.toNat) (hp : UnwrittenAfter s.buf (s.srcAddr.toNat + frameHdrLen h) l p) :
    decodePayload h l key (measured s h l) = .fault (.unwrittenByte (s.srcAddr.toNat + frameHdrLen h + p.length)) := by
  rw [decodePayload_of_fits hsrc hdst]
  exact reading_unwritten (State.readBytes_unwritten hp)

/-- DECODE at a payload byte. -/
theorem exec_decode_unwritten_payload (hr : RegionsPass s) (hb : FirstBytes s b0 b1)
    (hh : HeaderAccepted s (headerOf b0 b1)) (hl : LengthPresent s (headerOf b0 b1) ext l)
    (ha : LengthAccepted s (headerOf b0 b1) l) (hfit : frameHdrLen (headerOf b0 b1) ≤ s.srcLen.toNat)
    (hkey : (∃ k, k.length = 4 ∧ BytesAt s.buf (s.srcAddr.toNat + 2 + extLen (headerOf b0 b1).len7) k) ∨
      (headerOf b0 b1).masked = false)
    (hsrc : frameHdrLen (headerOf b0 b1) + l ≤ s.srcLen.toNat) (hdst : l ≤ s.dstCap.toNat)
    (h : UnwrittenAfter s.buf (s.srcAddr.toNat + frameHdrLen (headerOf b0 b1)) l p) :
    exec .decode s = .fault (.unwrittenByte (s.srcAddr.toNat + frameHdrLen (headerOf b0 b1) + p.length)) := by
  rw [exec_decode_of_lengthAccepted hr hb hh hl ha]
  cases hm : (headerOf b0 b1).masked with
  | false => rw [decodeKey_of_unmasked hm, decodePayload_unwritten hsrc hdst h]
  | true =>
    obtain ⟨k, hk, hbytes⟩ := hkey.resolve_right (by simp [hm])
    have hread : (measured s (headerOf b0 b1) l).readBytes (s.srcAddr.toNat + 2 + extLen (headerOf b0 b1).len7) 4 = .ok k :=
      State.readBytes_bytesAt hbytes hk
    rw [decodeKey_of_masked hm hfit, hread, reading_ok, decodePayload_unwritten hsrc hdst h]

/-- VALIDATE at an auxiliary byte: the lines of the block pass every check before the Accept value is compared. -/
theorem exec_validate_unwritten_aux {b up conn acc : List Byte} (hv : ValidateRuns s) (hb : BlockPresent s b)
    (hstatus : statusLineOk ((splitLines b).headD []) = true)
    (hup : valuesOf txtUpgrade (blockFields b) = [up]) (hweb : ieq up txtWebsocket = true)
    (hconn : valuesOf txtConnection (blockFields b) = [conn]) (hupg : ieq conn txtUpgrade = true)
    (hacc : valuesOf txtAccept (blockFields b) = [acc]) (h : UnwrittenAfter s.buf s.auxAddr.toNat s.auxLen.toNat p) :
    exec .validate s = .fault (.unwrittenByte (s.auxAddr.toNat + p.length)) := by
  have hlines : linesCheck (splitLines b) = none := by
    rw [blockFields] at hup hconn hacc
    simp [linesCheck, -List.headD_eq_head?_getD, hstatus, hup, hweb, hconn, hupg, hacc]
  have hblock : headerBlock s.clearResults = .ok (some b) := headerBlock_of_present (s := s.clearResults) hb
  rw [exec_validate_of_block hv hblock]
  simp only [validateBlock, hlines, validateAccept]
  exact reading_unwritten (State.readBytes_unwritten h)

end

/-- Settles O53: where the checks before a read pass, the command is that read and what follows it, and a run of reads faults
at its first unwritten byte. -/
theorem unwrittenReadsFault : Obligations.UnwrittenReadsFault := by
  refine fun s => ⟨fun a hin h => hostBufRead_unwritten hin h, fun a p hal hin h => hostBufReadWide_unwritten hal hin h,
    fun p hr hlen h => exec_decode_unwritten_base hr hlen h,
    fun b0 b1 p hr hb hh hfit h => exec_decode_unwritten_length hr hb hh hfit h,
    fun b0 b1 e p l hr hb hh hl ha hfit => ⟨fun hm h => exec_decode_unwritten_key hr hb hh hl ha hfit hm h,
      fun hkey hsrc hdst h => exec_decode_unwritten_payload hr hb hh hl ha hfit hkey hsrc hdst h⟩,
    fun fop fin msk p hr harg hfit h => ?_, fun p hr hfit h => ?_, fun p hv hlen h hnone => ?_,
    fun b up conn acc p hv hb hstatus hup hweb hconn hupg hacc h =>
      exec_validate_unwritten_aux hv hb hstatus hup hweb hconn hupg hacc h⟩
  · rw [exec_encode_of_fits hr harg hfit, encodeWrite]
    exact reading_unwritten (State.readBytes_unwritten h)
  · rw [exec_mask_of_fits hr hfit]
    exact reading_unwritten (State.readBytes_unwritten h)
  · exact exec_validate_of_fault hv (headerBlock_unwritten (s := s.clearResults) hlen h hnone)

end Sys2Proof.Machine
end

section
/-!
PROOFS. The encodings (30_encoding.md): how the rows of the opcode table decide what a word is read as, and from this that the
decoder and the encoder are inverse, which words are illegal and what an illegal word does.
-/

namespace Sys2Proof.Machine

open Sys2Proof.Stated

/-! ## The rows of the command words -/

/-- The mask of CMDOP, bits 3:0. -/
theorem getLsbD_cmdopMask : ∀ i < 32, (0xF : Word).getLsbD i = decide (i < 4) := by decide

theorem getLsbD_cmdop (v : Word) {i : Nat} (hi : i < 4) : (cmdop v).getLsbD i = v.getLsbD i := by
  simp [cmdop, hi]

theorem toNat_cmdop (v : Word) : (cmdop v).toNat = v.toNat % 16 := by simp [cmdop]

/-- Where a mask covers no bit of CMDOP, a row under the mask and CMDOP says what both are. -/
theorem and_rowMask_eq_iff {v m : Word} {op : BitVec 4} (hm : ∀ i < 4, m.getLsbD i = false) :
    v &&& (m ||| 0xF) = op.setWidth 32 ↔ cmdop v = op ∧ v &&& m = 0 := by
  have hbit : ∀ i < 32, (v &&& (m ||| 0xF)).getLsbD i =
      if i < 4 then (cmdop v).getLsbD i else (v &&& m).getLsbD i := fun i hi => by
    rw [BitVec.getLsbD_and, BitVec.getLsbD_or, getLsbD_cmdopMask i hi]
    split_ifs with h4
    · simp only [getLsbD_cmdop v h4, h4, decide_true, Bool.or_true, Bool.and_true]
    · simp [h4]
  refine ⟨fun h => ?_, fun ⟨hop, h0⟩ => BitVec.eq_of_getLsbD_eq fun i hi => by grind⟩
  rw [h] at hbit
  exact ⟨BitVec.eq_of_getLsbD_eq fun i hi => by grind, BitVec.eq_of_getLsbD_eq fun i hi => by grind⟩

/-- The row of a command without fields is one word (30_encoding.md R83). -/
theorem bareRow_iff {v : Word} {op : BitVec 4} : v = op.setWidth 32 ↔ cmdop v = op ∧ v &&& 0xFFFFFFF0 = 0 := by
  rw [← and_rowMask_eq_iff (by decide), show (0xFFFFFFF0 ||| 0xF : Word) = BitVec.allOnes 32 from rfl, BitVec.and_allOnes]

/-- The row of ENCODE (30_encoding.md R82, R83). -/
theorem encodeRow_iff {v : Word} : v &&& 0xFFFFC0FF = 0x00000002 ↔ cmdop v = 0x2 ∧ v &&& 0xFFFFC0F0 = 0 :=
  and_rowMask_eq_iff (m := 0xFFFFC0F0) (op := 0x2) (by decide)

theorem word_eq_of_cmdop {v : Word} {op : BitVec 4} (hop : cmdop v = op) (hne : op ≠ 0x2)
    (hbits : ¬ v &&& reservedMask (cmdop v) ≠ 0) : v = op.setWidth 32 := by
  rw [hop, reservedMask, if_neg hne, not_not] at hbits
  exact bareRow_iff.2 ⟨hop, hbits⟩

/-! ## What `decodeCmd` answers -/

/-- What a word is read as, by the rows of the opcode table (30_encoding.md R84). -/
inductive CmdReads (v : Word) : Except IllegalWord Instr → Prop where
  | unassigned (hop : cmdopAssigned (cmdop v) = false) : CmdReads v (.error .illegalCommand)
  | reserved (hop : cmdopAssigned (cmdop v) = true) (hbits : v &&& reservedMask (cmdop v) ≠ 0) :
      CmdReads v (.error .reservedCmdBits)
  | decode (hv : v = 0x00000001) : CmdReads v (.ok .decode)
  | encode (hrow : v &&& 0xFFFFC0FF = 0x00000002) :
      CmdReads v (.ok (.encode (v.extractLsb' 8 4) (v.getLsbD 12) (v.getLsbD 13)))
  | mask (hv : v = 0x00000003) : CmdReads v (.ok .mask)
  | validate (hv : v = 0x00000004) : CmdReads v (.ok .validate)
  | clear (hv : v = 0x0000000F) : CmdReads v (.ok .clear)

theorem decodeCmd_reads (v : Word) : CmdReads v (decodeCmd v) := by
  fun_cases decodeCmd v
  case case1 hop => exact .unassigned hop
  case case2 hop hbits => exact .reserved (by simpa using hop) hbits
  case case3 _ hbits hop => exact .decode (word_eq_of_cmdop hop (by decide) hbits)
  case case4 _ hbits _ hop =>
    rw [hop, not_not] at hbits
    exact .encode (encodeRow_iff.2 ⟨hop, hbits⟩)
  case case5 _ hbits _ _ hop => exact .mask (word_eq_of_cmdop hop (by decide) hbits)
  case case6 _ hbits _ _ _ hop => exact .validate (word_eq_of_cmdop hop (by decide) hbits)
  case case7 hassigned hbits h1 h2 h3 h4 =>
    have hop : cmdop v = 0xF := by simp_all [cmdopAssigned]
    exact .clear (word_eq_of_cmdop hop (by decide) hbits)

/-- The rows of the opcode table exclude one another, so they decide what `decodeCmd` answers. -/
theorem decodeCmd_eq_iff {v : Word} {r : Except IllegalWord Instr} : decodeCmd v = r ↔ CmdReads v r := by
  constructor
  · rintro rfl
    exact decodeCmd_reads v
  · rintro (hop | ⟨hop, hbits⟩ | rfl | hrow | rfl | rfl | rfl)
    · rw [decodeCmd, if_pos hop]
    · rw [decodeCmd, if_neg (by simp [hop]), if_pos hbits]
    · rfl
    · obtain ⟨hop, hbits⟩ := encodeRow_iff.1 hrow
      have hbits : ¬ v &&& reservedMask (cmdop v) ≠ 0 := by rwa [hop, not_not]
      rw [decodeCmd, if_neg (by simp [hop, cmdopAssigned]), if_neg hbits, if_neg (by simp [hop]), if_pos hop]
    · rfl
    · rfl
    · rfl

theorem decodeCmd_ok_iff_legalWord {v : Word} : (∃ i, decodeCmd v = .ok i) ↔ legalWord v = true := by
  simp only [decodeCmd_eq_iff, legalWord, Bool.or_eq_true, beq_iff_eq]
  constructor
  · rintro ⟨i, h⟩
    cases h <;> simp_all
  · rintro ((((h | h) | h) | h) | h)
    · exact ⟨_, .decode h⟩
    · exact ⟨_, .encode h⟩
    · exact ⟨_, .mask h⟩
    · exact ⟨_, .validate h⟩
    · exact ⟨_, .clear h⟩

theorem decodeWord_of_ok {v : Word} {i : Instr} (h : decodeCmd v = .ok i) : decodeWord v = i := by
  rw [decodeWord, h]

theorem decodeWord_of_error {v : Word} {c : IllegalWord} (h : decodeCmd v = .error c) : decodeWord v = .illegal v := by
  rw [decodeWord, h]

/-- A word that is in no command row is illegal (40_dispatch.md R121). -/
theorem decodeWord_of_not_legalWord {v : Word} (h : legalWord v = false) : decodeWord v = .illegal v := by
  cases hc : decodeCmd v with
  | ok i => simp [decodeCmd_ok_iff_legalWord.1 ⟨i, hc⟩] at h
  | error c => exact decodeWord_of_error hc

/-! ## The word of ENCODE -/

/-- The command word of ENCODE bit by bit (42_encode.md R170). -/
theorem getLsbD_encodeWord (fop : BitVec 4) (fin msk : Bool) (i : Nat) :
    (encodeWord fop fin msk).getLsbD i = if i < 8 then decide (i = 1) else if i < 12 then fop.getLsbD (i - 8)
      else if i < 13 then fin else if i < 14 then msk else false := by
  have h2 : ∀ i < 4, (2 : BitVec 4).getLsbD i = decide (i = 1) := by decide
  simp only [encodeWord, BitVec.getLsbD_append, BitVec.getLsbD_ofBool]
  grind

/-- The mask of the ENCODE row covers every bit but the three fields, 13:8. -/
theorem getLsbD_encodeRowMask : ∀ i < 32, (0xFFFFC0FF : Word).getLsbD i = decide (i < 8 ∨ 14 ≤ i) := by decide

theorem getLsbD_encodeRowMatch : ∀ i < 32, (0x00000002 : Word).getLsbD i = decide (i = 1) := by decide

/-- A word of the ENCODE row is the word of its fields. -/
theorem encodeWord_of_row {v : Word} (h : v &&& 0xFFFFC0FF = 0x00000002) :
    encodeWord (v.extractLsb' 8 4) (v.getLsbD 12) (v.getLsbD 13) = v := by
  refine BitVec.eq_of_getLsbD_eq fun i hi => ?_
  have hrow : (v.getLsbD i && decide (i < 8 ∨ 14 ≤ i)) = decide (i = 1) := by
    rw [← getLsbD_encodeRowMask i hi, ← getLsbD_encodeRowMatch i hi, ← h, BitVec.getLsbD_and]
  rw [getLsbD_encodeWord, BitVec.getLsbD_extractLsb']
  grind

theorem decodeWord_encodeWord (fop : BitVec 4) (fin msk : Bool) :
    decodeWord (encodeWord fop fin msk) = .encode fop fin msk := by
  obtain ⟨hrow, hfop, hfin, hmsk⟩ := Laws.TableRow.encodeWord_fields fop fin msk
  rw [decodeWord_of_ok (decodeCmd_eq_iff.2 (.encode hrow)), hfop, hfin, hmsk]

/-! ## Decoder and encoder are inverse -/

/-- The row of a byte 0 is told by its opcode, and its fields are those of the byte (30_encoding.md R86, R88). -/
theorem decodeByte0_of_encode {i : Instr} {b : Byte} (h : encode i = .byte0 b) : decodeByte0 b = i := by
  have hfin op fin rsv : byte0Fin (byte0Of op fin rsv) = fin := (Laws.TableRow.byte0Of_fields op fin rsv).2.1
  have hrsv op fin rsv : byte0Rsv (byte0Of op fin rsv) = rsv := (Laws.TableRow.byte0Of_fields op fin rsv).2.2
  cases i <;> cases h
  all_goals
    simp only [decodeByte0, byte0Op_byte0Of, hfin, hrsv]
    rfl

theorem decodeByte1_byte1Of (masked : Bool) (len7 : BitVec 7) : decodeByte1 (byte1Of masked len7) = .frameB1 masked len7 := by
  obtain ⟨hmasked, hlen7⟩ := Laws.TableRow.byte1Of_fields masked len7
  rw [decodeByte1, hmasked, hlen7]

/-- Settles O1: a command word lies in its row and has its fields there, an illegal word is in no row, and a frame byte shows
its opcode and its fields. -/
theorem encodeThenDecodeIsIdentity : Obligations.EncodeThenDecodeIsIdentity := by
  intro i hwf
  cases i with
  | decode | mask | validate | clear => rfl
  | encode fop fin msk => exact decodeWord_encodeWord fop fin msk
  | illegal w => exact decodeWord_of_not_legalWord (by simpa [Instr.wellFormed] using hwf)
  | frameB1 masked len7 => exact decodeByte1_byte1Of masked len7
  | _ => exact decodeByte0_of_encode rfl

theorem encode_of_decodeCmd {v : Word} {i : Instr} (h : decodeCmd v = .ok i) : encode i = .command v := by
  cases decodeCmd_eq_iff.1 h with
  | encode hrow => rw [encode, encodeWord_of_row hrow]
  | decode hv | mask hv | validate hv | clear hv => rw [hv, encode]

theorem wellFormed_of_decodeCmd {v : Word} {i : Instr} (h : decodeCmd v = .ok i) : i.wellFormed = true := by
  cases decodeCmd_eq_iff.1 h <;> rfl

theorem decodeWord_wellFormed_and_encode (v : Word) :
    (decodeWord v).wellFormed = true ∧ encode (decodeWord v) = .command v := by
  cases hl : legalWord v with
  | false => simp [decodeWord_of_not_legalWord hl, Instr.wellFormed, hl, encode]
  | true =>
    obtain ⟨i, hi⟩ := decodeCmd_ok_iff_legalWord.2 hl
    rw [decodeWord_of_ok hi]
    exact ⟨wellFormed_of_decodeCmd hi, encode_of_decodeCmd hi⟩

theorem wellFormed_decodeByte0 (b : Byte) : (decodeByte0 b).wellFormed = true := by
  fun_cases decodeByte0 b <;> rfl

/-- A byte 1 is the byte of its fields (30_encoding.md R87). -/
theorem byte1Of_byte1Masked_byte1Len7 : ∀ b : Byte, byte1Of (byte1Masked b) (byte1Len7 b) = b := by decide +kernel

/-- Settles O2: a word of a command row is the word of its fields, any other is kept by `illegal`, and a frame byte is the byte
of its fields. -/
theorem decodeThenEncodeIsIdentity : Obligations.DecodeThenEncodeIsIdentity := by
  intro c
  cases c with
  | command v => exact decodeWord_wellFormed_and_encode v
  | byte0 b => exact ⟨wellFormed_decodeByte0 b, encode_decodeByte0 b⟩
  | byte1 b => exact ⟨rfl, congrArg Code.byte1 (byte1Of_byte1Masked_byte1Len7 b)⟩

/-! ## The two kinds of illegal words -/

theorem cmdopAssigned_eq_false_iff : ∀ op : BitVec 4,
    cmdopAssigned op = false ↔ op.toNat ∉ [0x1, 0x2, 0x3, 0x4, 0xF] := by decide

theorem cmdopAssigned_iff_of_ne : ∀ op : BitVec 4, op ≠ 0x2 →
    (cmdopAssigned op = true ↔ op.toNat ∈ [0x1, 0x3, 0x4, 0xF]) := by decide

/-- The words with an unassigned CMDOP (30_encoding.md R81). -/
theorem cmdop_unassigned_iff {v : Word} :
    cmdopAssigned (cmdop v) = false ↔ v.toNat % 16 ∉ [0x1, 0x2, 0x3, 0x4, 0xF] := by
  rw [cmdopAssigned_eq_false_iff, toNat_cmdop]

/-- The words with an assigned CMDOP and a bit of its reserved mask set (30_encoding.md R83). -/
theorem reservedBits_iff {v : Word} :
    cmdopAssigned (cmdop v) = true ∧ v &&& reservedMask (cmdop v) ≠ 0 ↔
      (v.toNat % 16 = 0x2 ∧ v &&& 0xFFFFC0F0 ≠ 0) ∨ (v.toNat % 16 ∈ [0x1, 0x3, 0x4, 0xF] ∧ v &&& 0xFFFFFFF0 ≠ 0) := by
  rw [← toNat_cmdop]
  by_cases hop : cmdop v = 0x2
  · simp [hop, cmdopAssigned, reservedMask]
  · have hne : (cmdop v).toNat ≠ 0x2 := fun h => hop (BitVec.eq_of_toNat_eq h)
    rw [cmdopAssigned_iff_of_ne _ hop, reservedMask, if_neg hop]
    simp [hne]

/-- Settles O3: each clause is one form of `CmdReads`, in the words of the opcode table. -/
theorem decoderAgreesWithTheTable : Obligations.DecoderAgreesWithTheTable := by
  refine fun v => ⟨decodeCmd_eq_iff.trans ⟨fun | .decode hv => hv, .decode⟩,
    decodeCmd_eq_iff.trans ⟨fun | .mask hv => hv, .mask⟩,
    decodeCmd_eq_iff.trans ⟨fun | .validate hv => hv, .validate⟩,
    decodeCmd_eq_iff.trans ⟨fun | .clear hv => hv, .clear⟩,
    fun fop fin msk => decodeCmd_eq_iff.trans ⟨fun | .encode hrow => ⟨hrow, rfl, rfl, rfl⟩, ?_⟩, ?_, ?_,
    fun i => decodeWord_of_ok, fun c => decodeWord_of_error, rfl⟩
  · rintro ⟨hrow, rfl, rfl, rfl⟩
    exact .encode hrow
  · rw [← cmdop_unassigned_iff]
    exact decodeCmd_eq_iff.trans ⟨fun | .unassigned hop => hop, .unassigned⟩
  · rw [← reservedBits_iff]
    exact decodeCmd_eq_iff.trans ⟨fun | .reserved hop hbits => ⟨hop, hbits⟩, fun ⟨hop, hbits⟩ => .reserved hop hbits⟩

/-- Settles O4: the decoder evaluates each of the words. -/
theorem writtenOutWordsDecode : Obligations.WrittenOutWordsDecode := by
  unfold Obligations.WrittenOutWordsDecode
  decide

theorem exec_illegal (w : Word) (s : State) :
    exec (.illegal w) s = .next (outcome s (statusOf (illegalCause w)) 0 0 0 0) := by
  rw [exec, execIllegal, raise, failed_cleared]
  rfl

/-- Settles O10: both kinds of words are `illegal`, and the kind decides the cause. -/
theorem illegalWordsEndInCmdError : Obligations.IllegalWordsEndInCmdError := by
  refine fun s v => ⟨fun h => ?_, fun h => ?_⟩
  · have hop : cmdopAssigned (cmdop v) = false := cmdop_unassigned_iff.2 h
    refine ⟨decodeWord_of_error (decodeCmd_eq_iff.2 (.unassigned hop)), ?_⟩
    rw [exec_illegal, illegalCause, if_pos hop]
    rfl
  · obtain ⟨hop, hbits⟩ := reservedBits_iff.2 h
    refine ⟨decodeWord_of_error (decodeCmd_eq_iff.2 (.reserved hop hbits)), ?_⟩
    rw [exec_illegal, illegalCause, if_neg (by simp [hop])]
    rfl

end Sys2Proof.Machine
end

section
/-!
PROOFS. Keys and frames on the wire (30_encoding.md R85-R95): the bytes of a number and its value are inverse, the masking
kernel, DECODE of a whole frame, and the frame rows, with the accepted and the reserved opcodes.
-/

namespace Sys2Proof.Machine

open Sys2Proof.Stated

/-! ## Big-endian bytes and their value -/

theorem bigEndian_lt (bs : List Byte) : bigEndian bs < 256 ^ bs.length := by
  induction bs with
  | nil => simp [bigEndian]
  | cons b bs ih =>
    calc bigEndian (b :: bs) = b.toNat * 256 ^ bs.length + bigEndian bs := bigEndian_cons b bs
      _ < (b.toNat + 1) * 256 ^ bs.length := by linarith
      _ ≤ 256 * 256 ^ bs.length := Nat.mul_le_mul_right _ b.isLt
      _ = 256 ^ (b :: bs).length := (Nat.pow_succ' ..).symm

/-- What a number has above its n lowest bytes is not in its n bytes. -/
theorem beBytes_mul_add (x v n : Nat) : beBytes (x * 256 ^ n + v) n = beBytes v n := by
  induction n generalizing x with
  | zero => rfl
  | succ n ih =>
    have hpow : x * 256 ^ (n + 1) = x * 256 * 256 ^ n := by ring
    have hdiv : (x * 256 * 256 ^ n + v) / 256 ^ n = x * 256 + v / 256 ^ n := by
      rw [Nat.mul_comm, Nat.mul_add_div (by positivity)]
    have hbyte : BitVec.ofNat 8 (x * 256 + v / 256 ^ n) = BitVec.ofNat 8 (v / 256 ^ n) :=
      BitVec.eq_of_toNat_eq (by simp)
    rw [beBytes, beBytes, hpow, hdiv, hbyte, ih]

/-- Bytes are the bytes of their value (00_scope.md R11). -/
theorem beBytes_beValue (bs : List Byte) : beBytes (beValue bs) bs.length = bs := by
  rw [beValue_eq_bigEndian]
  induction bs with
  | nil => rfl
  | cons b bs ih =>
    have hdiv : (b.toNat * 256 ^ bs.length + bigEndian bs) / 256 ^ bs.length = b.toNat := by
      rw [Nat.mul_comm, Nat.mul_add_div (by positivity), Nat.div_eq_of_lt (bigEndian_lt bs), Nat.add_zero]
    rw [bigEndian_cons, List.length_cons, beBytes, hdiv, BitVec.ofNat_toNat, BitVec.setWidth_eq, beBytes_mul_add, ih]

/-- The value of the n bytes of a number is the number, as far as n bytes hold it (00_scope.md R11). -/
theorem beValue_beBytes (v n : Nat) : beValue (beBytes v n) = v % 256 ^ n := by
  rw [beValue_eq_bigEndian]
  induction n with
  | zero => simp [beBytes, bigEndian, Nat.mod_one]
  | succ n ih =>
    rw [beBytes, bigEndian_cons, ih, beBytes_length, BitVec.toNat_ofNat, Nat.mod_pow_succ (b := 256)]
    ring

/-! ## Keys and the kernel -/

theorem keyWord_keyBytes (k : Word) : keyWord (keyBytes k) = k := by
  have hk : k.toNat < 256 ^ 4 := k.isLt
  rw [keyWord, keyBytes, beValue_beBytes, Nat.mod_eq_of_lt hk, BitVec.ofNat_toNat, BitVec.setWidth_eq]

theorem keyBytes_keyWord {bs : List Byte} (h : bs.length = 4) : keyBytes (keyWord bs) = bs := by
  have hlt : beValue bs < 2 ^ 32 := by
    have := bigEndian_lt bs
    rwa [← beValue_eq_bigEndian, h] at this
  rw [keyBytes, keyWord, BitVec.toNat_ofNat, Nat.mod_eq_of_lt hlt, ← h, beBytes_beValue]

theorem keyBytes_eq (k : Word) :
    keyBytes k = [k.extractLsb' 24 8, k.extractLsb' 16 8, k.extractLsb' 8 8, k.extractLsb' 0 8] := by
  simp [keyBytes, beBytes, BitVec.extractLsb', Nat.shiftRight_eq_div_pow]

theorem toNat_append_byte {n : Nat} (x : BitVec n) (b : Byte) : (x ++ b).toNat = x.toNat * 256 + b.toNat := by
  rw [BitVec.toNat_append, ← Nat.shiftLeft_add_eq_or_of_lt b.isLt, Nat.shiftLeft_eq]

theorem keyWord_eq_append (k0 k1 k2 k3 : Byte) : keyWord [k0, k1, k2, k3] = k0 ++ k1 ++ k2 ++ k3 := by
  have hvalue : beValue [k0, k1, k2, k3] = (k0 ++ k1 ++ k2 ++ k3).toNat := by
    simp [beValue, toNat_append_byte]
  rw [keyWord, hvalue, BitVec.ofNat_toNat, BitVec.setWidth_eq]

theorem getElem?_xorFrom (k : Word) (j : Nat) (bs : List Byte) (i : Nat) :
    (xorFrom k j bs)[i]? = bs[i]?.map (· ^^^ keyByte k (j + i)) := by
  induction bs generalizing j i with
  | nil => rfl
  | cons b bs ih =>
    cases i with
    | zero => rfl
    | succ i => simpa [xorFrom, Nat.add_assoc, Nat.add_comm 1] using ih (j + 1) i

/-- The kernel is an involution from every phase on. -/
theorem xorFrom_xorFrom (k : Word) (j : Nat) (bs : List Byte) : xorFrom k j (xorFrom k j bs) = bs := by
  induction bs generalizing j with
  | nil => rfl
  | cons b bs ih => simp [xorFrom, ih]

/-- Settles O38, from the bytes of a key word and the kernel at each index. -/
theorem xorKernelAndKeyOrder : Obligations.XorKernelAndKeyOrder := by
  refine ⟨fun bs => ⟨rfl, fun k => rfl⟩, fun k => ⟨keyBytes_eq k, keyWord_keyBytes k⟩,
    fun k0 k1 k2 k3 => ⟨keyWord_eq_append k0 k1 k2 k3, keyBytes_keyWord rfl⟩,
    fun k bs => ⟨xorMask_length k bs, fun i hi => ?_, xorFrom_xorFrom k 0 bs⟩⟩
  rw [xorMask, getElem?_xorFrom, List.getElem?_eq_getElem hi, Nat.zero_add]
  rfl

/-! ## The frame on the wire -/

theorem bytesAt_append {m : Memory} {a : Nat} {xs ys : List Byte} :
    BytesAt m a (xs ++ ys) ↔ BytesAt m a xs ∧ BytesAt m (a + xs.length) ys := by
  induction xs generalizing a with
  | nil => simp [BytesAt]
  | cons x xs ih =>
    rw [List.cons_append, bytesAt_cons, bytesAt_cons, ih, List.length_cons, and_assoc, Nat.add_assoc, Nat.add_comm 1]

/-- The fields of bytes 0 and 1 of a frame are those of its header (30_encoding.md R86, R87). -/
theorem headerOf_wireBytes (h : FrameHeader) : headerOf (byte0Of h.op h.fin h.rsv) (byte1Of h.masked h.len7) = h := by
  obtain ⟨-, hfin, hrsv⟩ := Laws.TableRow.byte0Of_fields h.op h.fin h.rsv
  obtain ⟨hmasked, hlen7⟩ := Laws.TableRow.byte1Of_fields h.masked h.len7
  rw [headerOf, byte0Op_byte0Of, hfin, hrsv, hmasked, hlen7]

section
variable {s : State} {h : FrameHeader} {ext data : List Byte} {key : Option Word}

/-- Where each part of a frame stands (30_encoding.md R85). -/
theorem bytesAt_wireFrame {m : Memory} {a : Nat} :
    BytesAt m a (wireFrame h ext key data) ↔
      m.read a = some (byte0Of h.op h.fin h.rsv) ∧ m.read (a + 1) = some (byte1Of h.masked h.len7) ∧
        BytesAt m (a + 2) ext ∧ BytesAt m (a + 2 + ext.length) ((key.map keyBytes).getD []) ∧
        BytesAt m (a + (2 + ext.length + ((key.map keyBytes).getD []).length)) data := by
  simp only [wireFrame, bytesAt_cons, bytesAt_append, List.length_append, Nat.add_assoc, and_assoc, Nat.reduceAdd]

/-- The header length is that of the parts before the payload (30_encoding.md R90). -/
theorem frameHdrLen_eq_length (hext : ext.length = extLen h.len7) (hkey : h.masked = key.isSome) :
    frameHdrLen h = 2 + ext.length + ((key.map keyBytes).getD []).length := by
  cases key <;> simp [frameHdrLen, headerLen, hext, hkey, keyBytes]

theorem length_wireFrame (hext : ext.length = extLen h.len7) (hkey : h.masked = key.isSome) :
    (wireFrame h ext key data).length = frameHdrLen h + data.length := by
  simp only [wireFrame, List.length_cons, List.length_append, frameHdrLen_eq_length hext hkey]
  omega

/-! ## DECODE of a whole frame -/

/-- Step 5 of DECODE where the payload is written, present and fits (41_decode.md R153). -/
theorem decodePayload_of_bytesAt (hsrc : frameHdrLen h + data.length ≤ s.srcLen.toNat)
    (hdst : data.length ≤ s.dstCap.toNat) (hdata : BytesAt s.buf (s.srcAddr.toNat + frameHdrLen h) data) :
    decodePayload h data.length key (measured s h data.length) =
      .next (succeeded s (headerWord h true) data.length (frameHdrLen h + data.length) (maskedWith key data) key s.draws) := by
  have hread : (measured s h data.length).readBytes (s.srcAddr.toNat + frameHdrLen h) data.length = .ok data :=
    State.readBytes_bytesAt hdata rfl
  rw [decodePayload_of_fits hsrc hdst, hread, reading_ok, finishOk, succeeded_measured]

/-- Steps 1 to 3 of DECODE on a whole frame: what is left is the key and the payload. -/
theorem exec_decode_eq_decodeKey (hw : WholeFrame s h ext key data) :
    exec .decode s = decodeKey h data.length (measured s h data.length) := by
  obtain ⟨h0, h1, hextAt, -, -⟩ := bytesAt_wireFrame.1 hw.bytes
  have hpresent : 2 + ext.length ≤ s.srcLen.toNat := by
    have hfit := hw.present
    rw [length_wireFrame hw.extLength hw.keyPresent, frameHdrLen_eq_length hw.extLength hw.keyPresent] at hfit
    omega
  have hsteps := exec_decode_of_lengthAccepted (ext := ext) (l := data.length) hw.regions ⟨by omega, h0, h1⟩
  rw [headerOf_wireBytes] at hsteps
  exact hsteps hw.header ⟨hw.extLength, hpresent, hextAt, hw.dataLength⟩ hw.accepted

/-- DECODE of a whole accepted frame (41_decode.md R153). -/
theorem exec_decode_of_wholeFrame (hw : WholeFrame s h ext key data) :
    exec .decode s = .next (decoded s h ext key data) := by
  obtain ⟨-, -, -, hkeyAt, hdataAt⟩ := bytesAt_wireFrame.1 hw.bytes
  have hlen : (wireFrame h ext key data).length = frameHdrLen h + data.length :=
    length_wireFrame hw.extLength hw.keyPresent
  have hsrc : frameHdrLen h + data.length ≤ s.srcLen.toNat := hlen ▸ hw.present
  rw [← frameHdrLen_eq_length hw.extLength hw.keyPresent] at hdataAt
  have hpayload : decodePayload h data.length key (measured s h data.length) = .next (decoded s h ext key data) := by
    rw [decodePayload_of_bytesAt hsrc hw.room hdataAt, decoded, hlen]
    rfl
  rw [exec_decode_eq_decodeKey hw]
  cases key with
  | none => rw [decodeKey_of_unmasked hw.keyPresent, hpayload]
  | some k =>
    have hread : (measured s h data.length).readBytes (s.srcAddr.toNat + 2 + extLen h.len7) 4 = .ok (keyBytes k) :=
      State.readBytes_bytesAt (hw.extLength ▸ hkeyAt) (beBytes_length _ 4)
    rw [decodeKey_of_masked hw.keyPresent (by omega), hread, reading_ok, keyWord_keyBytes, hpayload]

end

/-! ## The rows of byte 0 -/

section
variable {s : State} {i : Instr} {b0 b1 : Byte}

/-- Where the source has the row's byte in its place, the row is DECODE (log entry 6). -/
theorem exec_eq_decode_of_byte0 (hi : encode i = .byte0 b0) (hb : s.buf.read s.srcAddr.toNat = some b0) :
    exec i s = exec .decode s := by
  have hread : s.readSrc 0 = .ok b0 := State.readByte_ok.2 hb
  rw [exec_of_encode_byte0 hi, ← hread]
  rfl

/-- Step 1 of a row of byte 0: its own byte is judged with the byte 1 of the source (log entry 6). -/
theorem exec_byte0Row_of_byte1 (hi : encode i = .byte0 b0) (hr : RegionsPass s) (hlen : 2 ≤ s.srcLen.toNat)
    (hb : s.buf.read (s.srcAddr.toNat + 1) = some b1) : exec i s = decodeHeader (headerOf b0 b1) s.clearResults := by
  have hread : s.readSrc 1 = .ok b1 := State.readByte_ok.2 hb
  have hlen : ¬ s.clearResults.srcLen.toNat < 2 := Nat.not_lt.2 hlen
  calc exec i s = runDecode (.ok b0) (.ok b1) s := by rw [exec_of_encode_byte0 hi, hread]
    _ = decodeBody (.ok b0) (.ok b1) s.clearResults := withSrcDst_pass hr
    _ = decodeHeader (headerOf b0 b1) s.clearResults := if_neg hlen

end

/-- Settles O30: byte 0 of the frame stands in the source, so the row is DECODE of a whole frame. -/
theorem acceptedFrameRowsComplete : Obligations.AcceptedFrameRowsComplete := by
  intro s h ext key data hw
  obtain ⟨hb, -⟩ := bytesAt_wireFrame.1 hw.bytes
  have hrow {i op} (hi : encode i = .byte0 (byte0Of op h.fin h.rsv)) (hop : h.op = op) :
      exec i s = .next (decoded s h ext key data) := by
    rw [exec_eq_decode_of_byte0 (hop ▸ hi) hb, exec_decode_of_wholeFrame hw]
  exact ⟨hrow rfl, hrow rfl, hrow rfl, hrow rfl, hrow rfl, hrow rfl⟩

/-! ## The reserved opcodes -/

section
variable {s : State} {op : BitVec 4} {fin msk : Bool} {rsv : BitVec 3} {b1 : Byte}

theorem isReserved_of_range (hop : (3 ≤ op.toNat ∧ op.toNat ≤ 7) ∨ 11 ≤ op.toNat) : isReserved op = true := by
  have hlt : op.toNat < 16 := op.isLt
  rw [isReserved, decide_eq_true_iff]
  omega

/-- RSV is judged first, then the opcode (41_decode.md R144). -/
theorem headerCheck_of_reserved (hop : isReserved op = true) (client : Bool) :
    headerCheck client (headerOf (byte0Of op fin rsv) b1) = some (if rsv = 0 then .reservedOpcode else .rsvNonzero) := by
  obtain ⟨-, -, hrsv⟩ := Laws.TableRow.byte0Of_fields op fin rsv
  have hrsv : (headerOf (byte0Of op fin rsv) b1).rsv = rsv := hrsv
  have hop : isReserved (headerOf (byte0Of op fin rsv) b1).op = true := by rwa [headerOf, byte0Op_byte0Of]
  rw [headerCheck, hrsv]
  by_cases h0 : rsv = 0
  · rw [if_neg (not_not.2 h0), if_pos hop, if_pos h0]
  · rw [if_pos h0, if_neg h0]

theorem decodeHeader_of_reserved (hop : isReserved op = true) :
    decodeHeader (headerOf (byte0Of op fin rsv) b1) s.clearResults = .next (outcome s
      (if rsv = 0 then 0x00000203 else 0x00000103) (headerWord (headerOf (byte0Of op fin rsv) b1) false) 0 0 0) := by
  have hstatus : statusOf (if rsv = 0 then .reservedOpcode else .rsvNonzero)
      = if rsv = 0 then 0x00000203 else 0x00000103 := by
    split_ifs <;> rfl
  simp only [decodeHeader, headerCheck_of_reserved hop]
  rw [raise, failed_header, ← hstatus]
  rfl

theorem exec_encode_of_reserved (hr : RegionsPass s) (hop : isReserved op = true) :
    exec (.encode op fin msk) s = .next (outcome s 0x00002505 0 0 0 0) := by
  have hcheck (client : Bool) (l : Nat) : encodeCheck client op fin msk l = some .encBadOpcode := if_pos hop
  calc exec (.encode op fin msk) s = encodeBody op fin msk s.clearResults := withSrcDst_pass hr
    _ = raise .encBadOpcode s.clearResults := by simp only [encodeBody, hcheck]
    _ = .next (outcome s 0x00002505 0 0 0 0) := by rw [raise, failed_cleared]; rfl

end

/-- Settles O31: a row gets to the header checks with its own byte 0, DECODE with that of the source, and ENCODE judges FOP
first. -/
theorem reservedFrameOpcodesAreRefused : Obligations.ReservedFrameOpcodesAreRefused := by
  refine fun s fin b1 hr => ⟨fun hlen hb rsv st hst => ?_, fun op hop hb => ?_, fun fop msk hop => ?_⟩
  · have hrow {i op} (hop : isReserved op = true) (hi : encode i = .byte0 (byte0Of op fin rsv)) :
        exec i s = .next (outcome s st (headerWord (headerOf (byte0Of op fin rsv) b1) false) 0 0 0) := by
      rw [exec_byte0Row_of_byte1 hi hr hlen hb, decodeHeader_of_reserved hop, hst]
    exact ⟨hrow rfl rfl, hrow rfl rfl, hrow rfl rfl, hrow rfl rfl, hrow rfl rfl, hrow rfl rfl, hrow rfl rfl, hrow rfl rfl,
      hrow rfl rfl, hrow rfl rfl⟩
  · rw [exec_decode_of_firstBytes hr hb, decodeHeader_of_reserved (isReserved_of_range hop), if_pos rfl]
  · exact exec_encode_of_reserved hr (isReserved_of_range hop)

end Sys2Proof.Machine
end

section
/-!
PROOFS. The commands as a whole (40_dispatch.md): no command reads an earlier outcome, what one that does not end OK leaves,
which RESULT each leaves, and the prologue where a region is out of range or the regions overlap.
-/

namespace Sys2Proof.Machine

open Sys2Proof.Stated Sys2Proof.Safety

/-! ## STATUS has no reader

Every ending writes STATUS over, so an earlier STATUS is pushed outward through the updates of the state until it is lost. -/

section
variable (s : State) (w : Word)

@[simp] theorem State.setStatus_setStatus (v : Word) : (s.setStatus w).setStatus v = s.setStatus v := rfl

@[simp] theorem State.setFrame_setStatus (f : Word) : (s.setStatus w).setFrame f = (s.setFrame f).setStatus w := rfl

@[simp] theorem State.setPaylen_setStatus (l : Nat) : (s.setStatus w).setPaylen l = (s.setPaylen l).setStatus w := rfl

@[simp] theorem State.setConsumed_setStatus (n : Nat) :
    (s.setStatus w).setConsumed n = (s.setConsumed n).setStatus w := rfl

@[simp] theorem State.setDraws_setStatus (n : Nat) : (s.setStatus w).setDraws n = (s.setDraws n).setStatus w := rfl

@[simp] theorem State.writeBuf_setStatus (a : Nat) (bs : List Byte) :
    (s.setStatus w).writeBuf a bs = (s.writeBuf a bs).setStatus w := rfl

@[simp] theorem State.keepKey_setStatus (key : Option Word) :
    (s.setStatus w).keepKey key = (s.keepKey key).setStatus w := by
  cases key <;> rfl

@[simp] theorem State.readBytes_setStatus (a n : Nat) : (s.setStatus w).readBytes a n = s.readBytes a n :=
  State.readBytes_congr (s := s.setStatus w) (t := s) rfl a n

@[simp] theorem finishOk_setStatus : finishOk (s.setStatus w) = finishOk s := rfl

@[simp] theorem raise_setStatus (c : Cause) : raise c (s.setStatus w) = raise c s := rfl

@[simp] theorem need_setStatus (c : Cause) (n : Nat) : need c n (s.setStatus w) = need c n s := rfl

@[simp] theorem headerBlock_setStatus : headerBlock (s.setStatus w) = headerBlock s := by
  have hwritten (a n : Nat) : (s.setStatus w).writtenPrefix a n = s.writtenPrefix a n :=
    State.writtenPrefix_congr (s := s.setStatus w) (t := s) rfl a n
  simp [headerBlock, hwritten]

@[simp] theorem encodeKey_setStatus (msk : Bool) :
    encodeKey msk (s.setStatus w) = ((encodeKey msk s).1, (encodeKey msk s).2.setStatus w) := by
  cases msk with
  | false => rfl
  | true => cases hsrc : ctrlKeySrc s.ctrl <;> simp [encodeKey, hsrc, State.draw]

end

/-- What a command does after its prologue does not depend on STATUS. -/
def IgnoresStatus (body : State → Out) : Prop := ∀ (s : State) (w : Word), body (s.setStatus w) = body s

theorem withRegions_setStatus {body : State → Out} (h : IgnoresStatus body) (p q : Region) (o : Bool) (s : State)
    (w : Word) : withRegions p q o body (s.setStatus w) = withRegions p q o body s := by
  simp [withRegions, h s w]

theorem IgnoresStatus.withSrcDst {body : State → Out} (h : IgnoresStatus body) : IgnoresStatus (withSrcDst body) :=
  fun _ _ => withRegions_setStatus h ..

theorem IgnoresStatus.withSrcDstInPlace {body : State → Out} (h : IgnoresStatus body) :
    IgnoresStatus (withSrcDstInPlace body) :=
  fun _ _ => withRegions_setStatus h ..

theorem IgnoresStatus.withSrcAux {body : State → Out} (h : IgnoresStatus body) : IgnoresStatus (withSrcAux body) :=
  fun _ _ => withRegions_setStatus h ..

theorem decodePayload_ignoresStatus (h : FrameHeader) (l : Nat) (key : Option Word) :
    IgnoresStatus (decodePayload h l key) := fun s w => by
  simp [decodePayload]

theorem decodeKey_ignoresStatus (h : FrameHeader) (l : Nat) : IgnoresStatus (decodeKey h l) := fun s w => by
  simp [decodeKey, decodePayload_ignoresStatus h l _ s w]

theorem decodeKnownLength_ignoresStatus (h : FrameHeader) (l : Nat) : IgnoresStatus (decodeKnownLength h l) :=
  fun s w => by
    simp [decodeKnownLength, decodeKey_ignoresStatus h l _ w]

theorem decodeLength_ignoresStatus (h : FrameHeader) : IgnoresStatus (decodeLength h) := fun s w => by
  simp [decodeLength, decodeKnownLength_ignoresStatus h _ s w]

theorem decodeHeader_ignoresStatus (h : FrameHeader) : IgnoresStatus (decodeHeader h) := fun s w => by
  simp [decodeHeader, decodeLength_ignoresStatus h _ w]

theorem decodeBody_ignoresStatus (r0 r1 : Except Fault Byte) : IgnoresStatus (decodeBody r0 r1) := fun s w => by
  simp [decodeBody, decodeHeader_ignoresStatus _ s w]

theorem encodeWrite_ignoresStatus (fop : BitVec 4) (fin msk : Bool) : IgnoresStatus (encodeWrite fop fin msk) :=
  fun s w => by
    simp [encodeWrite]

theorem encodeBody_ignoresStatus (fop : BitVec 4) (fin msk : Bool) : IgnoresStatus (encodeBody fop fin msk) :=
  fun s w => by
    simp [encodeBody, encodeWrite_ignoresStatus fop fin msk s w]

theorem maskBody_ignoresStatus : IgnoresStatus maskBody := fun s w => by
  simp [maskBody]

theorem validateAccept_ignoresStatus (lines : List (List Byte)) : IgnoresStatus (validateAccept lines) := fun s w => by
  simp [validateAccept]

theorem validateBlock_ignoresStatus (b : List Byte) : IgnoresStatus (validateBlock b) := fun s w => by
  simp [validateBlock, validateAccept_ignoresStatus _ _ w]

theorem validateBody_ignoresStatus : IgnoresStatus validateBody := fun s w => by
  simp [validateBody, validateBlock_ignoresStatus _ s w]

/-! ## States that differ in an earlier outcome only -/

section
variable {s t : State}

/-- A command clears the result registers first, and what follows does not see STATUS. -/
theorem IgnoresStatus.clearResults_congr {body : State → Out} (hb : IgnoresStatus body)
    (h : s.clearResults.setStatus 0 = t.clearResults.setStatus 0) : body s.clearResults = body t.clearResults := by
  rw [← hb s.clearResults 0, h, hb]

theorem State.readSrc_congr (h : s.clearResults.setStatus 0 = t.clearResults.setStatus 0) (i : Nat) :
    s.readSrc i = t.readSrc i := by
  have hbuf : s.buf = t.buf := congrArg (·.buf) h
  have haddr : s.srcAddr = t.srcAddr := congrArg (·.srcAddr) h
  rw [State.readSrc, State.readSrc, haddr, State.readByte_congr hbuf]

theorem runDecode_congr {r0 r1 r0' r1' : Except Fault Byte} (h0 : r0 = r0') (h1 : r1 = r1')
    (h : s.clearResults.setStatus 0 = t.clearResults.setStatus 0) : runDecode r0 r1 s = runDecode r0' r1' t := by
  rw [h0, h1]
  exact (decodeBody_ignoresStatus r0' r1').withSrcDst.clearResults_congr h

/-- Two states that agree once STATUS and the result registers are cleared run every instruction alike (40_dispatch.md R128):
CLEAR is that clearing, and every other command is a body after `clearResults`. -/
theorem exec_congr (h : s.clearResults.setStatus 0 = t.clearResults.setStatus 0) (i : Instr) : exec i s = exec i t := by
  cases i with
  | encode fop fin msk => exact (encodeBody_ignoresStatus fop fin msk).withSrcDst.clearResults_congr h
  | mask => exact maskBody_ignoresStatus.withSrcDstInPlace.clearResults_congr h
  | validate => exact validateBody_ignoresStatus.withSrcAux.clearResults_congr h
  | clear => exact congrArg Host.Outcome.next h
  | illegal w => exact IgnoresStatus.clearResults_congr (fun s v => raise_setStatus s v (illegalCause w)) h
  | decode => exact runDecode_congr (State.readSrc_congr h 0) (State.readSrc_congr h 1) h
  | frameB1 masked len7 => exact runDecode_congr (State.readSrc_congr h 0) rfl h
  | _ => exact runDecode_congr rfl (State.readSrc_congr h 1) h

end

/-- Settles O14: such states agree once the outcome is cleared. -/
theorem earlierOutcomesDoNotMatter : Obligations.EarlierOutcomesDoNotMatter := by
  intro i s st fr pl ph co nl nh
  refine exec_congr ?_ i
  rfl

/-! ## Commands that do not end OK -/

section
variable {i : Instr} {s t : State}

/-- Only an OK ending writes more than STATUS and the result registers (40_dispatch.md R127). -/
theorem CommandLeaves.outcome_only (h : CommandLeaves s t) (hne : t.status ≠ 0x00000001) :
    t = { s with
      status := t.status, rFrame := t.rFrame, rPaylenLo := t.rPaylenLo, rPaylenHi := t.rPaylenHi
      rConsumed := t.rConsumed, rNeedLo := t.rNeedLo, rNeedHi := t.rNeedHi } := by
  cases h with
  | failed | cleared => rfl
  | succeeded => exact absurd rfl hne

/-- The counts of a legal state are 0 after CMD_ERROR (10_state.md R44, R45). -/
theorem counts_eq_zero_of_cmdError (h : CountsLegal t) (hres : statusResult t.status = resultCode .cmdError) :
    t.rConsumed = 0 ∧ t.rNeedLo = 0 ∧ t.rNeedHi = 0 := by
  obtain ⟨hconsumed, hneed⟩ := h
  rw [hres] at hconsumed hneed
  exact ⟨hconsumed (by decide) (by decide), hneed (by decide)⟩

/-- A frame is recorded by DECODE, and by ENCODE where it ends OK. -/
theorem frame_eq_zero_of_not_runsDecode (e : exec i s = .next t) (hne : t.status ≠ 0x00000001) (hi : ¬ RunsDecode i) :
    t.rFrame = 0 ∧ t.rPaylenLo = 0 ∧ t.rPaylenHi = 0 := by
  cases exec_ends e with
  | decode hdec _ => exact absurd (runsDecode_of_isDecoding hdec) hi
  | encode _ _ _ _ h =>
    cases h with
    | failed => exact ⟨rfl, rfl, rfl⟩
    | ok => exact absurd rfl hne
  | mask _ h => cases h <;> exact ⟨rfl, rfl, rfl⟩
  | validate _ h => cases h <;> exact ⟨rfl, rfl, rfl⟩
  | clear _ h | illegal _ _ h => exact h ▸ ⟨rfl, rfl, rfl⟩

end

/-- Settles O16, from the form of the state a command leaves and the legality of its result registers. -/
theorem failedCommandsWriteNothing : Obligations.FailedCommandsWriteNothing := by
  intro i s t e hne
  refine ⟨(exec_leaves e).outcome_only hne, fun hres => ?_⟩
  obtain ⟨hconsumed, hlo, hhi⟩ := counts_eq_zero_of_cmdError (exec_resultsLegal e).2 hres
  exact ⟨hconsumed, hlo, hhi, frame_eq_zero_of_not_runsDecode e hne⟩

/-! ## RESULT = NONE -/

/-- CLEAR is one word: a word is the encoding of what it decodes to. -/
theorem decodeWord_eq_clear_iff {v : Word} : decodeWord v = .clear ↔ v = 0x0000000F := by
  refine ⟨fun h => ?_, fun h => h ▸ rfl⟩
  have henc : encode (decodeWord v) = .command v := (decodeWord_wellFormed_and_encode v).2
  rw [h] at henc
  exact (Code.command.inj henc).symm

theorem exec_clear (s : State) : exec .clear s = .next (outcome s 0 0 0 0 0) := rfl

/-- Every command but CLEAR leaves the STATUS of OK or of a cause (60_exceptions.md R236). -/
theorem exec_status_of_ne_clear {i : Instr} {s t : State} (e : exec i s = .next t) (hi : i ≠ .clear) :
    t.status = statusOk ∨ ∃ c, t.status = statusOf c := by
  cases exec_ends e with
  | decode _ h =>
    cases h with
    | early | header | length => exact .inr ⟨_, rfl⟩
    | ok => exact .inl rfl
  | encode _ _ _ _ h =>
    cases h with
    | failed => exact .inr ⟨_, rfl⟩
    | ok => exact .inl rfl
  | mask _ h =>
    cases h with
    | failed => exact .inr ⟨_, rfl⟩
    | ok => exact .inl rfl
  | validate _ h =>
    cases h with
    | refused | incomplete | judged => exact .inr ⟨_, rfl⟩
    | accepted => exact .inl rfl
  | clear hc _ => exact absurd hc hi
  | illegal w _ h => exact .inr ⟨illegalCause w, h ▸ rfl⟩

/-- STATUS of a cause does not show NONE. -/
theorem statusResult_statusOf_ne_none (c : Cause) : statusResult (statusOf c) ≠ resultCode .none := by cases c <;> decide

theorem statusResult_ne_none {i : Instr} {s t : State} (e : exec i s = .next t) (hi : i ≠ .clear) :
    statusResult t.status ≠ resultCode .none := by
  obtain h | ⟨c, h⟩ := exec_status_of_ne_clear e hi <;> rw [h]
  · decide
  · exact statusResult_statusOf_ne_none c

/-- Settles O11: every ending but that of CLEAR has a RESULT. -/
theorem clearLeavesNone : Obligations.ClearLeavesNone := by
  refine ⟨fun v => decodeWord_eq_clear_iff, exec_clear, fun c d q => rfl, fun i s t e => ⟨fun h0 => ?_, ?_⟩⟩
  · by_contra hi
    exact statusResult_ne_none e hi h0
  · rintro rfl
    cases e
    rfl

/-! ## The prologue where a check fails -/

section
variable {s : State} {p q : Region} {o : Bool} {body : State → Out}

theorem raise_clearResults (c : Cause) (s : State) : raise c s.clearResults = .next (outcome s (statusOf c) 0 0 0 0) := by
  rw [raise, failed_cleared]
  rfl

/-- The first two checks of the prologue (40_dispatch.md R123). -/
theorem withRegions_outOfRange (h : ¬ p.addr + p.len ≤ s.cfg.bufSize ∨ ¬ q.addr + q.len ≤ s.cfg.bufSize) :
    withRegions p q o body s.clearResults = .next (outcome s 0x00002205 0 0 0 0) := by
  rw [withRegions_range (s := s.clearResults) (h.imp decide_eq_false decide_eq_false), raise_clearResults]
  rfl

/-- The last check of the prologue (40_dispatch.md R124). -/
theorem withRegions_overlapping (hp : p.addr + p.len ≤ s.cfg.bufSize) (hq : q.addr + q.len ≤ s.cfg.bufSize)
    (ho : o = true) : withRegions p q o body s.clearResults = .next (outcome s 0x00002305 0 0 0 0) := by
  rw [withRegions_overlap (s := s.clearResults) (inRange_true.2 hp) (inRange_true.2 hq) ho, raise_clearResults]
  rfl

end

/-- Settles O12: the prologue of each command checks its two regions first. -/
theorem regionOutOfRangeIsRefused : Obligations.RegionOutOfRangeIsRefused :=
  fun _ => ⟨fun h => ⟨withRegions_outOfRange h, fun _ _ _ => withRegions_outOfRange h, withRegions_outOfRange h⟩,
    fun h => withRegions_outOfRange h⟩

/-- Only the overlap cause gives its STATUS word (60_exceptions.md R234). -/
theorem statusOf_eq_overlap (c : Cause) : statusOf c = 0x00002305 → c = .regionOverlap := by cases c <;> decide

/-- The body of MASK ends with one cause, or OK (43_mask.md R190). -/
theorem maskBody_status {s t : State} (e : maskBody s = .next t) :
    t.status = statusOf .dstTooSmall ∨ t.status = statusOk := by
  unfold maskBody at e
  split_ifs at e
  · rw [raise_next] at e
    exact .inl (e ▸ rfl)
  · obtain ⟨p, -, e⟩ := reading_next.1 e
    rw [finishOk_next] at e
    exact .inr (e ▸ rfl)

/-- VALIDATE has no overlap check (40_dispatch.md R124). -/
theorem ValidateEnds.status_ne_overlap {s t : State} (h : ValidateEnds s t) : t.status ≠ 0x00002305 := by
  cases h with
  | refused c hc =>
    intro h
    obtain rfl := statusOf_eq_overlap c h
    simp at hc
  | incomplete | accepted => exact of_decide_eq_true rfl
  | judged c b hc =>
    intro h
    obtain rfl := statusOf_eq_overlap c h
    cases hc

/-- Settles O13: the overlap is the last check of the prologues of DECODE, ENCODE and MASK; exactly in place, MASK gets to its
body. -/
theorem regionOverlapIsRefused : Obligations.RegionOverlapIsRefused := by
  refine fun s => ⟨fun hsrc hdst hovl => ?_, fun t e => (execValidate_ends e).status_ne_overlap⟩
  have hovl : overlap (srcRegion s) (dstRegion s) = true := decide_eq_true hovl
  refine ⟨withRegions_overlapping hsrc hdst hovl, fun _ _ _ => withRegions_overlapping hsrc hdst hovl,
    fun hne => withRegions_overlapping hsrc hdst ?_, fun heq t e => ?_⟩
  · simp [hovl, hne]
  · have hbody : exec .mask s = maskBody s.clearResults := withSrcDstInPlace_pass ⟨hsrc, hdst, .inr heq⟩
    obtain hst | hst := maskBody_status (hbody ▸ e)
    all_goals
      rw [hst]
      decide

end Sys2Proof.Machine
end

section
/-!
PROOFS. DECODE (41_decode.md): the outcome of each step where the checks before it pass, every way a header that has been read
can end, and from these the outcomes of R142-R153 and the two halves of partial-read resilience (R155).
-/

namespace Sys2Proof.Machine

open Sys2Proof.Stated

/-! ## The STATUS words -/

/-- Every cause (60_exceptions.md R232-R235). -/
def causes : List Cause :=
  [.rsvNonzero, .reservedOpcode, .maskedServerFrame, .controlNotFin, .controlTooLong, .lengthMsbSet, .nonMinimalLength,
    .statusNot101, .duplicateHeader, .upgradeBad, .connectionBad, .acceptMissing, .acceptMismatch, .illegalCommand,
    .reservedCmdBits, .regionOutOfRange, .regionOverlap, .dstTooSmall, .encBadOpcode, .encControlNotFin,
    .encControlTooLong, .encUnmaskedClientFrame, .auxEmpty, .needBaseHeader, .needExtLen, .needMaskKey, .needPayload,
    .needHeaderEnd]

theorem mem_causes (c : Cause) : c ∈ causes := by cases c <;> decide

/-- No two causes have one STATUS word. -/
theorem statusOf_injective : Function.Injective statusOf := fun c d =>
  (by decide +kernel : ∀ c ∈ causes, ∀ d ∈ causes, statusOf c = statusOf d → c = d) c (mem_causes c) d (mem_causes d)

/-! ## The frame rows -/

/-- Where the source has this byte 1, its row is DECODE (log entry 6). -/
theorem exec_eq_decode_of_byte1 {s : State} {masked : Bool} {len7 : BitVec 7}
    (hb : s.buf.read (s.srcAddr.toNat + 1) = some (byte1Of masked len7)) :
    exec (.frameB1 masked len7) s = exec .decode s := by
  have hread : s.readSrc 1 = .ok (byte1Of masked len7) := State.readByte_ok.2 hb
  exact congrArg (runDecode (s.readSrc 0) · s) hread.symm

/-- Settles O7: the row of a byte puts that byte in the place of the one DECODE reads. -/
theorem decodeRunsTheFrameRow : Obligations.DecodeRunsTheFrameRow := by
  refine fun s b => ⟨fun hb => (exec_eq_decode_of_byte0 (encode_decodeByte0 b) hb).symm, fun hb => ?_⟩
  rw [← byte1Of_byte1Masked_byte1Len7 b] at hb
  exact (exec_eq_decode_of_byte1 hb).symm

/-! ## Step 1: the base header -/

section
variable {s : State}

/-- DECODE of fewer than two bytes (41_decode.md R142). -/
theorem exec_decode_of_short (hr : RegionsPass s) (hshort : s.srcLen.toNat < 2) :
    exec .decode s = .next (outcome s 0x00003002 0 0 0 2) := calc
  exec .decode s = decodeBody (s.readSrc 0) (s.readSrc 1) s.clearResults := withSrcDst_pass hr
  _ = need .needBaseHeader 2 s.clearResults := if_pos hshort
  _ = .next (outcome s 0x00003002 0 0 0 2) := by rw [need, raise, failed_early]; rfl

end

/-- Settles O20: the number of source bytes is judged before any of them is read. -/
theorem decodeNeedsTwoBytes : Obligations.DecodeNeedsTwoBytes := fun _ hr hshort => exec_decode_of_short hr hshort

/-! ## Step 2: the checks on the header -/

section
variable {s : State} {h : FrameHeader} {b0 b1 : Byte} {c : Cause}

/-- The STATUS words of 41_decode.md R144 are those of the causes DECODE checks for, in the same order. -/
theorem headerStatus_eq (client : Bool) (h : FrameHeader) : headerStatus client h = (headerCheck client h).map statusOf := by
  by_cases hgood : GoodOpcode h.op
  · have hres : isReserved h.op = false := (isReserved_eq_false_iff h.op).2 hgood
    simp only [headerStatus, headerCheck, hgood, not_true, hres, isControl_iff_of_good h.op hgood, Bool.false_eq_true,
      if_false]
    split_ifs <;> rfl
  · have hres : isReserved h.op = true := by
      rwa [← Bool.not_eq_false, isReserved_eq_false_iff]
    simp only [headerStatus, headerCheck, hgood, not_false_iff, hres, if_true]
    split_ifs <;> rfl

theorem decodeHeader_of_rejected (hc : headerCheck (ctrlClient s.ctrl) h = some c) :
    decodeHeader h s.clearResults = .next (outcome s (statusOf c) (headerWord h false) 0 0 0) := by
  simp only [decodeHeader, State.clearResults_ctrl, hc]
  rw [raise, failed_header]
  rfl

theorem exec_decode_of_headerStatus {st : Word} (hr : RegionsPass s) (hb : FirstBytes s b0 b1)
    (hst : headerStatus (ctrlClient s.ctrl) (headerOf b0 b1) = some st) :
    exec .decode s = .next (outcome s st (headerWord (headerOf b0 b1) false) 0 0 0) := by
  rw [headerStatus_eq, Option.map_eq_some_iff] at hst
  obtain ⟨c, hc, rfl⟩ := hst
  rw [exec_decode_of_firstBytes hr hb, decodeHeader_of_rejected hc]

/-- A header that no check of 41_decode.md R144 refuses is accepted. -/
theorem headerAccepted_of_headerCheck (hnone : headerCheck (ctrlClient s.ctrl) h = none) : HeaderAccepted s h := by
  unfold headerCheck at hnone
  split_ifs at hnone with hrsv hres hmasked hfin hlong
  have hgood : GoodOpcode h.op := (isReserved_eq_false_iff h.op).1 (by simpa using hres)
  refine ⟨not_not.1 hrsv, hgood, fun hclient => ?_, fun hcontrol => ?_⟩
  · simpa [hclient] using hmasked
  · have hcontrol : isControl h.op = true := (isControl_iff_of_good h.op hgood).2 hcontrol
    exact ⟨by simpa [hcontrol] using hfin, by simpa [hcontrol] using hlong⟩

/-- Only a len7 over 125 is CONTROL_TOO_LONG (41_decode.md R145). -/
theorem headerCheck_ne_controlTooLong {client : Bool} (h7 : h.len7.toNat ≤ 125) :
    headerCheck client h ≠ some .controlTooLong := by
  intro hc
  unfold headerCheck at hc
  split_ifs at hc with _ _ _ _ hlong <;> cases hc
  exact Nat.not_lt.2 h7 hlong.2

theorem headerCheck_ne_nonMinimalLength (client : Bool) : headerCheck client h ≠ some .nonMinimalLength := by
  unfold headerCheck
  split_ifs <;> simp

end

/-- Settles O21: R_FRAME is filled, then the first failing check ends the command. -/
theorem decodeRejectsTheHeader : Obligations.DecodeRejectsTheHeader :=
  fun _ _ _ _ hr hb hst => exec_decode_of_headerStatus hr hb hst

/-! ## Step 3: the payload length -/

section
variable {s : State} {h : FrameHeader} {b0 b1 : Byte} {e : List Byte} {l : Nat} {c : Cause}

theorem exec_decode_of_accepted (hr : RegionsPass s) (hb : FirstBytes s b0 b1) (hh : HeaderAccepted s (headerOf b0 b1)) :
    exec .decode s
      = decodeLength (headerOf b0 b1) (s.clearResults.setFrame (headerWord (headerOf b0 b1) false)) := by
  rw [exec_decode_of_firstBytes hr hb, decodeHeader_of_accepted hh]

/-- Step 3 of DECODE where an extended byte is missing (41_decode.md R146). -/
theorem decodeLength_of_short (h7 : ¬ h.len7.toNat ≤ 125) (hshort : s.srcLen.toNat < 2 + extLen h.len7) :
    decodeLength h (s.clearResults.setFrame (headerWord h false))
      = .next (outcome s 0x00003102 (headerWord h false) 0 0 (2 + extLen h.len7)) := by
  have hshort : (s.clearResults.setFrame (headerWord h false)).srcLen.toNat < 2 + extLen h.len7 := hshort
  rw [decodeLength, if_neg h7, if_pos hshort, need, raise, failed_header_need]
  rfl

theorem exec_decode_of_shortLength (hr : RegionsPass s) (hb : FirstBytes s b0 b1) (hh : HeaderAccepted s (headerOf b0 b1))
    (h7 : ¬ (headerOf b0 b1).len7.toNat ≤ 125) (hshort : s.srcLen.toNat < 2 + extLen (headerOf b0 b1).len7) :
    exec .decode s = .next
      (outcome s 0x00003102 (headerWord (headerOf b0 b1) false) 0 0 (2 + extLen (headerOf b0 b1).len7)) := by
  rw [exec_decode_of_accepted hr hb hh, decodeLength_of_short h7 hshort]

/-- The end of step 3 where a check on the length fails (41_decode.md R147, R148). -/
theorem decodeKnownLength_of_rejected (hc : lengthCheck (ctrlStrictLen s.ctrl) h.len7 l = some c) :
    decodeKnownLength h l (s.clearResults.setFrame (headerWord h false))
      = .next (outcome s (statusOf c) (headerWord h true) l 0 0) := by
  simp only [decodeKnownLength, State.setFrame_ctrl, State.clearResults_ctrl, hc]
  rw [raise]
  exact congrArg Host.Outcome.next (failed_measured s h l c)

theorem exec_decode_of_lengthRejected (hr : RegionsPass s) (hb : FirstBytes s b0 b1)
    (hh : HeaderAccepted s (headerOf b0 b1)) (hl : LengthPresent s (headerOf b0 b1) e l)
    (hc : lengthCheck (ctrlStrictLen s.ctrl) (headerOf b0 b1).len7 l = some c) :
    exec .decode s = .next (outcome s (statusOf c) (headerWord (headerOf b0 b1) true) l 0 0) := by
  rw [exec_decode_of_accepted hr hb hh, decodeLength_of_present hl, decodeKnownLength_of_rejected hc]

/-- A length that no check of 41_decode.md R147 and R148 refuses is accepted. -/
theorem lengthAccepted_of_lengthCheck (hnone : lengthCheck (ctrlStrictLen s.ctrl) h.len7 l = none) :
    LengthAccepted s h l := by
  unfold lengthCheck at hnone
  split_ifs at hnone with hmsb hminimal
  grind

/-- A len7 of at most 125 is the length, and no check is made on it (41_decode.md R145). -/
theorem lengthAccepted_of_short (h7 : h.len7.toNat ≤ 125) : LengthAccepted s h l := by
  have h126 : h.len7 ≠ 126 := fun e => absurd (e ▸ h7) (by decide)
  have h127 : h.len7 ≠ 127 := fun e => absurd (e ▸ h7) (by decide)
  exact ⟨fun e => absurd e h127, fun _ => ⟨fun e => absurd e h126, fun e => absurd e h127⟩⟩

theorem lengthCheck_msb (strict : Bool) (h7 : h.len7 = 127) (hl : 0x8000000000000000 ≤ l) :
    lengthCheck strict h.len7 l = some .lengthMsbSet := if_pos ⟨h7, hl⟩

theorem lengthCheck_nonMinimal (hl : h.len7 = 126 ∧ l < 126 ∨ h.len7 = 127 ∧ l < 65536) :
    lengthCheck true h.len7 l = some .nonMinimalLength := by
  rw [lengthCheck, if_neg (by omega), if_pos ⟨rfl, hl⟩]

theorem lengthCheck_lenient {len7 : BitVec 7} : lengthCheck false len7 l ≠ some .nonMinimalLength := by
  unfold lengthCheck
  split_ifs <;> simp_all

/-- The length fits R_PAYLEN (10_state.md R43). -/
theorem wireLength_lt {len7 : BitVec 7} (he : e.length = extLen len7) : wireLength len7 e < 0x10000000000000000 := by
  have hlt : bigEndian e < 256 ^ e.length := bigEndian_lt e
  have hle : e.length ≤ 8 := by
    rw [he, extLen]
    split_ifs <;> omega
  have hpow : 256 ^ e.length ≤ 256 ^ 8 := Nat.pow_le_pow_right (by decide) hle
  rw [wireLength]
  split_ifs <;> omega

theorem highWord_of_lt {n : Nat} (h : n < 0x100000000) : highWord n = 0 := by
  rw [highWord, Nat.div_eq_of_lt h]
  rfl

/-- The two words of a count hold it (10_state.md R43, R45). -/
theorem highWord_lowWord {n : Nat} (h : n < 0x10000000000000000) :
    (highWord n).toNat * 0x100000000 + (lowWord n).toNat = n := by
  simp only [highWord, lowWord, BitVec.toNat_ofNat]
  omega

end

/-- Settles O24: bit 63 is the first check on the length. -/
theorem lengthMsbIsRejected : Obligations.LengthMsbIsRejected :=
  fun _ _ _ _ _ hr hb hh h7 hl hmsb => exec_decode_of_lengthRejected hr hb hh hl (lengthCheck_msb _ h7 hmsb)

/-! ## Steps 4 and 5: the key and the payload -/

/-- The four key bytes of a masked frame are written. -/
abbrev KeyPresent (s : State) (h : FrameHeader) : Prop :=
  (∃ k, k.length = 4 ∧ BytesAt s.buf (s.srcAddr.toNat + 2 + extLen h.len7) k) ∨ h.masked = false

section
variable {s : State} {h : FrameHeader} {l : Nat} {key : Option Word}

@[simp] theorem measured_srcLen : (measured s h l).srcLen = s.srcLen := rfl

@[simp] theorem measured_dstCap : (measured s h l).dstCap = s.dstCap := rfl

theorem decodeKey_of_short (hm : h.masked = true) (hshort : s.srcLen.toNat < frameHdrLen h) :
    decodeKey h l (measured s h l) = .next (outcome s 0x00003202 (headerWord h true) l 0 (frameHdrLen h)) := by
  rw [decodeKey, if_neg (by simp [hm]), measured_srcLen, if_pos hshort, need, raise, failed_measured_need]
  rfl

/-- Step 4 of DECODE where the key, if there is one, is present and written. -/
theorem decodeKey_of_keyPresent (hkey : KeyPresent s h) (hfit : frameHdrLen h ≤ s.srcLen.toNat) :
    ∃ key, decodeKey h l (measured s h l) = decodePayload h l key (measured s h l) := by
  cases hm : h.masked with
  | false => exact ⟨none, decodeKey_of_unmasked hm⟩
  | true =>
    obtain ⟨k, hk, hbytes⟩ := hkey.resolve_right (by simp [hm])
    have hread : (measured s h l).readBytes (s.srcAddr.toNat + 2 + extLen h.len7) 4 = .ok k :=
      State.readBytes_bytesAt hbytes hk
    exact ⟨some (keyWord k), by rw [decodeKey_of_masked hm hfit, hread, reading_ok]⟩

theorem decodePayload_of_short (hshort : s.srcLen.toNat < frameHdrLen h + l) :
    decodePayload h l key (measured s h l)
      = .next (outcome s 0x00003302 (headerWord h true) l 0 (frameHdrLen h + l)) := by
  rw [decodePayload, measured_srcLen, if_pos hshort, need, raise, failed_measured_need]
  rfl

theorem decodePayload_of_noRoom (hsrc : frameHdrLen h + l ≤ s.srcLen.toNat) (hroom : s.dstCap.toNat < l) :
    decodePayload h l key (measured s h l) = .next (outcome s 0x00002405 (headerWord h true) l 0 0) := by
  rw [decodePayload, measured_srcLen, measured_dstCap, if_neg (Nat.not_lt.2 hsrc), if_pos hroom, raise, failed_measured]
  rfl

end

section
variable {s : State} {b0 b1 : Byte} {e : List Byte} {l : Nat}

/-- DECODE of a masked frame whose key is incomplete (41_decode.md R149). -/
theorem exec_decode_of_shortKey (hr : RegionsPass s) (hb : FirstBytes s b0 b1)
    (hh : HeaderAccepted s (headerOf b0 b1)) (hl : LengthPresent s (headerOf b0 b1) e l)
    (ha : LengthAccepted s (headerOf b0 b1) l) (hm : (headerOf b0 b1).masked = true)
    (hshort : s.srcLen.toNat < frameHdrLen (headerOf b0 b1)) :
    exec .decode s = .next
      (outcome s 0x00003202 (headerWord (headerOf b0 b1) true) l 0 (frameHdrLen (headerOf b0 b1))) := by
  rw [exec_decode_of_lengthAccepted hr hb hh hl ha, decodeKey_of_short hm hshort]

/-- DECODE of a frame whose header is complete and accepted, but not its payload (41_decode.md R150). -/
theorem exec_decode_of_shortPayload (hr : RegionsPass s) (hb : FirstBytes s b0 b1)
    (hh : HeaderAccepted s (headerOf b0 b1)) (hl : LengthPresent s (headerOf b0 b1) e l)
    (ha : LengthAccepted s (headerOf b0 b1) l) (hkey : KeyPresent s (headerOf b0 b1))
    (hfit : frameHdrLen (headerOf b0 b1) ≤ s.srcLen.toNat) (hshort : s.srcLen.toNat < frameHdrLen (headerOf b0 b1) + l) :
    exec .decode s = .next
      (outcome s 0x00003302 (headerWord (headerOf b0 b1) true) l 0 (frameHdrLen (headerOf b0 b1) + l)) := by
  obtain ⟨key, hpayload⟩ := decodeKey_of_keyPresent (l := l) hkey hfit
  rw [exec_decode_of_lengthAccepted hr hb hh hl ha, hpayload, decodePayload_of_short hshort]

/-- The command asks for more source bytes (60_exceptions.md R231). -/
def NeedsMore (o : Out) : Prop := ∃ u, o = .next u ∧ u.status.extractLsb' 0 4 = 2

theorem needsMore_of_outcome {o : Out} {st f : Word} {p c n : Nat} (ho : o = .next (outcome s st f p c n))
    (hst : st.extractLsb' 0 4 = 2) : NeedsMore o := ⟨_, ho, hst⟩

/-- DECODE of a cut-off accepted frame needs more, whichever part it is cut in (41_decode.md R155). -/
theorem exec_decode_of_cutFrame {n : Word} (hr : RegionsPass { s with srcLen := n }) (hb : FirstBytes s b0 b1)
    (hh : HeaderAccepted s (headerOf b0 b1)) (hl : LengthPresent s (headerOf b0 b1) e l)
    (ha : LengthAccepted s (headerOf b0 b1) l) (hkey : KeyPresent s (headerOf b0 b1))
    (hshort : n.toNat < frameHdrLen (headerOf b0 b1) + l) :
    NeedsMore (exec .decode { s with srcLen := n }) := by
  obtain ⟨-, h0, h1⟩ := hb
  obtain ⟨hext, -, hbytes, hwire⟩ := hl
  obtain hbase | hbase := Nat.lt_or_ge n.toNat 2
  · exact needsMore_of_outcome (exec_decode_of_short hr hbase) (by decide)
  have hb : FirstBytes { s with srcLen := n } b0 b1 := ⟨hbase, h0, h1⟩
  by_cases hlen : 2 + extLen (headerOf b0 b1).len7 ≤ n.toNat
  · have hl : LengthPresent { s with srcLen := n } (headerOf b0 b1) e l := ⟨hext, hext ▸ hlen, hbytes, hwire⟩
    by_cases hfit : frameHdrLen (headerOf b0 b1) ≤ n.toNat
    · exact needsMore_of_outcome (exec_decode_of_shortPayload hr hb hh hl ha hkey hfit hshort) (by decide)
    · have hm : (headerOf b0 b1).masked = true := by
        by_contra hm
        simp [frameHdrLen, headerLen, hm] at hfit
        omega
      exact needsMore_of_outcome (exec_decode_of_shortKey hr hb hh hl ha hm (Nat.not_le.1 hfit)) (by decide)
  · have h7 : ¬ (headerOf b0 b1).len7.toNat ≤ 125 := fun h7 => by
      rw [extLen_of_short h7] at hlen
      omega
    exact needsMore_of_outcome (exec_decode_of_shortLength hr hb hh h7 (Nat.not_le.1 hlen)) (by decide)

end

/-- Settles O27: the first clause is step 5 with too few source bytes; in the second no SRC_LEN reaches the end of the frame. -/
theorem decodeNeedsTheWholeFrame : Obligations.DecodeNeedsTheWholeFrame :=
  fun _ _ _ _ _ hr hb hh hl ha hkey => ⟨fun hfit hshort => exec_decode_of_shortPayload hr hb hh hl ha hkey hfit hshort,
    fun hlong n hr => exec_decode_of_cutFrame hr hb hh hl ha hkey (Nat.lt_of_lt_of_le n.isLt hlong)⟩

/-- Settles O28: the capacity is the last check, and nothing has been written when it is made. -/
theorem decodeNeedsRoom : Obligations.DecodeNeedsRoom := by
  intro s b0 b1 e l hr hb hh hl ha hkey hsrc hroom
  obtain ⟨key, hpayload⟩ := decodeKey_of_keyPresent (l := l) hkey (Nat.le_of_add_right_le hsrc)
  rw [exec_decode_of_lengthAccepted hr hb hh hl ha, hpayload, decodePayload_of_noRoom hsrc hroom]

/-- Settles O29: byte 1 of the frame stands in the source, so its row is DECODE of a whole frame too. -/
theorem decodeDeliversThePayload : Obligations.DecodeDeliversThePayload := by
  intro s h ext key data hw
  obtain ⟨-, hb, -⟩ := bytesAt_wireFrame.1 hw.bytes
  have hdecode : exec .decode s = .next (decoded s h ext key data) := exec_decode_of_wholeFrame hw
  exact ⟨hdecode, (exec_eq_decode_of_byte1 hb).trans hdecode⟩

/-! ## Every way a header that has been read can end -/

theorem bytesAt_nil {m : Memory} {a : Nat} : BytesAt m a [] := fun _ hi => absurd hi (Nat.not_lt_zero _)

/-- The ways DECODE ends once a length is accepted (41_decode.md R149-R153), the last with the key and the payload bytes as
they stand in the source. -/
inductive FrameEnds (s : State) (h : FrameHeader) (l : Nat) : State → Prop where
  | shortKey (hm : h.masked = true) :
      FrameEnds s h l (outcome s 0x00003202 (headerWord h true) l 0 (frameHdrLen h))
  | shortPayload : FrameEnds s h l (outcome s 0x00003302 (headerWord h true) l 0 (frameHdrLen h + l))
  | noRoom : FrameEnds s h l (outcome s 0x00002405 (headerWord h true) l 0 0)
  | ok (key : Option Word) (data : List Byte) (hm : h.masked = key.isSome) (hl : data.length = l)
      (hkey : BytesAt s.buf (s.srcAddr.toNat + 2 + extLen h.len7) ((key.map keyBytes).getD []))
      (hdata : BytesAt s.buf (s.srcAddr.toNat + frameHdrLen h) data)
      (hsrc : frameHdrLen h + l ≤ s.srcLen.toNat) (hdst : l ≤ s.dstCap.toNat) :
      FrameEnds s h l (succeeded s (headerWord h true) l (frameHdrLen h + l) (maskedWith key data) key s.draws)

/-- The ways DECODE ends once bytes 0 and 1 are read (41_decode.md R144-R153). -/
inductive HeaderEnds (s : State) (h : FrameHeader) : State → Prop where
  | rejected (c : Cause) (hc : headerCheck (ctrlClient s.ctrl) h = some c) :
      HeaderEnds s h (outcome s (statusOf c) (headerWord h false) 0 0 0)
  | shortLength (hshort : s.srcLen.toNat < 2 + extLen h.len7) :
      HeaderEnds s h (outcome s 0x00003102 (headerWord h false) 0 0 (2 + extLen h.len7))
  | lengthRejected (e : List Byte) (l : Nat) (c : Cause) (hl : LengthPresent s h e l)
      (hc : lengthCheck (ctrlStrictLen s.ctrl) h.len7 l = some c) :
      HeaderEnds s h (outcome s (statusOf c) (headerWord h true) l 0 0)
  | frame (e : List Byte) (l : Nat) (t : State) (hh : HeaderAccepted s h) (hl : LengthPresent s h e l)
      (ha : LengthAccepted s h l) (ht : FrameEnds s h l t) : HeaderEnds s h t

section
variable {s t : State} {h : FrameHeader} {b0 b1 : Byte} {e : List Byte} {l : Nat}

theorem frameEnds_of_decodePayload {key : Option Word} (hm : h.masked = key.isSome)
    (hkey : BytesAt s.buf (s.srcAddr.toNat + 2 + extLen h.len7) ((key.map keyBytes).getD []))
    (ht : decodePayload h l key (measured s h l) = .next t) : FrameEnds s h l t := by
  obtain hshort | hsrc := Nat.lt_or_ge s.srcLen.toNat (frameHdrLen h + l)
  · rw [decodePayload_of_short hshort] at ht
    cases ht
    exact .shortPayload
  obtain hroom | hdst := Nat.lt_or_ge s.dstCap.toNat l
  · rw [decodePayload_of_noRoom hsrc hroom] at ht
    cases ht
    exact .noRoom
  · rw [decodePayload_of_fits hsrc hdst] at ht
    obtain ⟨data, hread, ht⟩ := reading_next.1 ht
    obtain ⟨hl, hdata⟩ := State.readBytes_ok.1 hread
    rw [finishOk_next, succeeded_measured] at ht
    exact ht ▸ .ok key data hm hl hkey hdata hsrc hdst

theorem frameEnds_of_decodeKey (ht : decodeKey h l (measured s h l) = .next t) : FrameEnds s h l t := by
  cases hm : h.masked with
  | false =>
    rw [decodeKey_of_unmasked hm] at ht
    exact frameEnds_of_decodePayload (key := none) hm bytesAt_nil ht
  | true =>
    obtain hshort | hfit := Nat.lt_or_ge s.srcLen.toNat (frameHdrLen h)
    · rw [decodeKey_of_short hm hshort] at ht
      cases ht
      exact .shortKey hm
    · rw [decodeKey_of_masked hm hfit] at ht
      obtain ⟨k, hread, ht⟩ := reading_next.1 ht
      obtain ⟨hk, hbytes⟩ := State.readBytes_ok.1 hread
      rw [← keyBytes_keyWord hk] at hbytes
      exact frameEnds_of_decodePayload (key := some (keyWord k)) hm hbytes ht

theorem headerEnds_of_lengthPresent (hh : HeaderAccepted s h) (hl : LengthPresent s h e l)
    (ht : decodeKnownLength h l (s.clearResults.setFrame (headerWord h false)) = .next t) : HeaderEnds s h t := by
  cases hc : lengthCheck (ctrlStrictLen s.ctrl) h.len7 l with
  | some c =>
    rw [decodeKnownLength_of_rejected hc] at ht
    cases ht
    exact .lengthRejected e l c hl hc
  | none =>
    have ha : LengthAccepted s h l := lengthAccepted_of_lengthCheck hc
    rw [decodeKnownLength_of_accepted ha] at ht
    exact .frame e l t hh hl ha (frameEnds_of_decodeKey ht)

theorem headerEnds_of_decodeHeader (hlen : 2 ≤ s.srcLen.toNat) (ht : decodeHeader h s.clearResults = .next t) :
    HeaderEnds s h t := by
  cases hc : headerCheck (ctrlClient s.ctrl) h with
  | some c =>
    rw [decodeHeader_of_rejected hc] at ht
    cases ht
    exact .rejected c hc
  | none =>
    have hh : HeaderAccepted s h := headerAccepted_of_headerCheck hc
    rw [decodeHeader_of_accepted hh] at ht
    by_cases h7 : h.len7.toNat ≤ 125
    · have hl : LengthPresent s h [] h.len7.toNat := ⟨(extLen_of_short h7).symm, hlen, bytesAt_nil, (if_pos h7).symm⟩
      rw [decodeLength_of_present hl] at ht
      exact headerEnds_of_lengthPresent hh hl ht
    obtain hshort | hfit := Nat.lt_or_ge s.srcLen.toNat (2 + extLen h.len7)
    · rw [decodeLength_of_short h7 hshort] at ht
      cases ht
      exact .shortLength hshort
    · rw [decodeLength_of_extended h7 hfit] at ht
      obtain ⟨e, hread, ht⟩ := reading_next.1 ht
      obtain ⟨he, hbytes⟩ := State.readBytes_ok.1 hread
      rw [beValue_eq_bigEndian] at ht
      exact headerEnds_of_lengthPresent hh ⟨he, he ▸ hfit, hbytes, (if_neg h7).symm⟩ ht

theorem exec_decode_headerEnds (hr : RegionsPass s) (hb : FirstBytes s b0 b1) (ht : exec .decode s = .next t) :
    HeaderEnds s (headerOf b0 b1) t := by
  rw [exec_decode_of_firstBytes hr hb] at ht
  exact headerEnds_of_decodeHeader hb.1 ht

/-- DECODE ends before it has read a byte, or bytes 0 and 1 are present and it ends as their header does. -/
theorem exec_decode_ends (ht : exec .decode s = .next t) :
    (t.status = statusOf .regionOutOfRange ∨ t.status = statusOf .regionOverlap ∨ t.status = statusOf .needBaseHeader) ∨
      RegionsPass s ∧ ∃ b0 b1, FirstBytes s b0 b1 ∧ HeaderEnds s (headerOf b0 b1) t := by
  obtain ⟨-, ht⟩ | ⟨-, -, -, ht⟩ | ⟨hsrc, hdst, hovl, -⟩ := withRegions_next.1 ht
  · exact .inl (.inl (ht ▸ rfl))
  · exact .inl (.inr (.inl (ht ▸ rfl)))
  have hr : RegionsPass s := ⟨inRange_true.1 hsrc, inRange_true.1 hdst, of_decide_eq_false hovl⟩
  obtain hshort | hlen := Nat.lt_or_ge s.srcLen.toNat 2
  · rw [exec_decode_of_short hr hshort] at ht
    cases ht
    exact .inl (.inr (.inr rfl))
  · have hread := ht
    rw [exec_decode_of_twoBytes hr hlen] at hread
    obtain ⟨b0, h0, hread⟩ := reading_next.1 hread
    obtain ⟨b1, h1, -⟩ := reading_next.1 hread
    have hb : FirstBytes s b0 b1 := ⟨hlen, State.readByte_ok.1 h0, State.readByte_ok.1 h1⟩
    exact .inr ⟨hr, b0, b1, hb, exec_decode_headerEnds hr hb ht⟩

/-- What every ending after an accepted length records. -/
theorem FrameEnds.recorded (ht : FrameEnds s h l t) :
    t.status ∈ ([0x00003202, 0x00003302, 0x00002405, 0x00000001] : List Word) ∧ t.rPaylenLo = lowWord l ∧
      t.rPaylenHi = highWord l ∧ t.rFrame = headerWord h true := by
  have hok : statusOk = 0x00000001 := rfl
  cases ht <;> exact ⟨by simp [outcome, succeeded, hok], rfl, rfl, rfl⟩

end

theorem frameLV_headerWord (h : FrameHeader) (lv : Bool) : frameLV (headerWord h lv) = lv := frameLV_frameWord ..

/-- Where the header is accepted and its extended bytes are present, every ending records their length with LV = 1. -/
theorem HeaderEnds.recorded {s t : State} {h : FrameHeader} (ht : HeaderEnds s h t) (hh : HeaderAccepted s h)
    (hfit : 2 + extLen h.len7 ≤ s.srcLen.toNat) :
    ∃ e l, LengthPresent s h e l ∧ t.rPaylenLo = lowWord l ∧ t.rPaylenHi = highWord l ∧ t.rFrame = headerWord h true := by
  cases ht with
  | rejected c hc => simp [headerCheck_eq_none hh] at hc
  | shortLength hshort => exact absurd hfit (Nat.not_le.2 hshort)
  | lengthRejected e l c hl => exact ⟨e, l, hl, rfl, rfl, rfl⟩
  | frame e l _ _ hl _ ht => exact ⟨e, l, hl, ht.recorded.2⟩

/-- Settles O22: a control frame with len7 over 125 fails the last check on the header, and one with at most 125 has len7 as
its length. -/
theorem controlLengthIsJudgedOnLen7 : Obligations.ControlLengthIsJudgedOnLen7 := by
  intro s b0 b1 hr hb hcontrol
  refine ⟨fun hrsv hfin hclient h7 => exec_decode_of_headerStatus hr hb ?_, fun h7 t ht => ?_⟩
  · have hgood : GoodOpcode (headerOf b0 b1).op := .inr (.inr (.inr hcontrol))
    rw [headerStatus, if_neg (not_not.2 hrsv), if_neg (not_not.2 hgood), if_neg fun ⟨hc, hm⟩ => by simp [hclient hc] at hm,
      if_neg fun ⟨_, hf⟩ => by simp [hfin] at hf, if_pos ⟨hcontrol, h7⟩]
  · cases exec_decode_headerEnds hr hb ht with
    | rejected c hc =>
      refine ⟨fun hst => ?_, fun hlv => absurd ((frameLV_headerWord ..).symm.trans hlv) (by decide)⟩
      obtain rfl : c = .controlTooLong := statusOf_injective hst
      exact headerCheck_ne_controlTooLong h7 hc
    | shortLength hshort => exact absurd hb.1 (Nat.not_le.2 (by rwa [extLen_of_short h7] at hshort))
    | lengthRejected e l c _ hc => simp [lengthCheck_eq_none (lengthAccepted_of_short h7)] at hc
    | frame e l _ _ hl _ ht =>
      obtain ⟨hst, hlo, hhi, -⟩ := ht.recorded
      obtain ⟨-, -, -, rfl⟩ := hl
      have hlt : (headerOf b0 b1).len7.toNat < 0x100000000 := by omega
      rw [wireLength, if_pos h7] at hlo hhi
      exact ⟨fun e => absurd (e ▸ hst) (by decide), fun _ => ⟨by rw [hlo, toNat_lowWord hlt],
        hhi.trans (highWord_of_lt hlt)⟩⟩

/-- Settles O23: with too few bytes step 3 ends the command, otherwise it reads them and records their value. -/
theorem decodeReadsTheExtendedLength : Obligations.DecodeReadsTheExtendedLength := by
  intro s b0 b1 hr hb hh h7
  have h7 : ¬ (headerOf b0 b1).len7.toNat ≤ 125 := Nat.not_le.2 h7
  refine ⟨fun h126 hshort => ?_, fun h127 hshort => ?_, fun hfit t ht => ?_⟩
  · have hext : extLen (headerOf b0 b1).len7 = 2 := by rw [h126]; rfl
    rw [exec_decode_of_shortLength hr hb hh h7 (by omega), hext]
  · have hext : extLen (headerOf b0 b1).len7 = 8 := by rw [h127]; rfl
    rw [exec_decode_of_shortLength hr hb hh h7 (by omega), hext]
  · obtain ⟨e, l, ⟨he, -, hbytes, rfl⟩, hlo, hhi, hframe⟩ := (exec_decode_headerEnds hr hb ht).recorded hh hfit
    have hvalue : wireLength (headerOf b0 b1).len7 e = bigEndian e := if_neg h7
    refine ⟨e, he, hbytes, ?_, hframe ▸ frameLV_headerWord ..⟩
    rw [hlo, hhi, highWord_lowWord (wireLength_lt he), hvalue]

/-- With STRICT_LEN = 0 no ending is NON_MINIMAL_LENGTH (41_decode.md R148). -/
theorem exec_decode_status_of_lenient {s t : State} (hs : ctrlStrictLen s.ctrl = false) (ht : exec .decode s = .next t) :
    t.status ≠ 0x00000703 := by
  have hcause {c : Cause} (hst : statusOf c = 0x00000703) : c = .nonMinimalLength := statusOf_injective hst
  obtain hst | ⟨-, b0, b1, -, ht⟩ := exec_decode_ends ht
  · obtain hst | hst | hst := hst
    all_goals
      rw [hst]
      decide
  · cases ht with
    | rejected c hc => exact fun hst => headerCheck_ne_nonMinimalLength _ (hcause hst ▸ hc)
    | shortLength => exact of_decide_eq_true rfl
    | lengthRejected e l c _ hc =>
      rw [hs] at hc
      exact fun hst => lengthCheck_lenient (hcause hst ▸ hc)
    | frame _ _ _ _ _ _ ht => exact fun hst => absurd (hst ▸ ht.recorded.1) (by decide)

/-- Settles O25: STRICT_LEN decides whether the length that was read is refused or DECODE goes on with it. -/
theorem nonMinimalLengthIsRejected : Obligations.NonMinimalLengthIsRejected := by
  refine fun s => ⟨fun b0 b1 e l hr hb hh hl hnon => ⟨fun hs => ?_, fun hs t ht => ?_⟩,
    fun hs t ht => exec_decode_status_of_lenient hs ht⟩
  · exact exec_decode_of_lengthRejected hr hb hh hl (hs ▸ lengthCheck_nonMinimal hnon)
  · have ha : LengthAccepted s (headerOf b0 b1) l := ⟨fun _ => by omega, fun h => by simp [hs] at h⟩
    rw [exec_decode_of_lengthAccepted hr hb hh hl ha] at ht
    obtain ⟨hst, hlo, hhi, hframe⟩ := (frameEnds_of_decodeKey ht).recorded
    have hlt : l < 0x100000000 := by omega
    exact ⟨hst, hlo, hhi.trans (highWord_of_lt hlt), hframe⟩

/-- Settles O26: the step of the key is the only one that needs a key, and a masked header has passed the check on the role. -/
theorem decodeNeedsTheMaskKey : Obligations.DecodeNeedsTheMaskKey := by
  refine fun s b0 b1 hr hb => ⟨fun e l hh hl ha hm hshort => exec_decode_of_shortKey hr hb hh hl ha hm hshort,
    fun t ht hst => ?_⟩
  have hcause {c : Cause} (hst : statusOf c = 0x00003202) : causeResult c ≠ .protocolError := by
    rw [statusOf_injective (hst.trans (rfl : _ = statusOf .needMaskKey))]
    decide
  cases exec_decode_headerEnds hr hb ht with
  | rejected c hc => exact absurd (headerCheck_protocolError hc) (hcause hst)
  | shortLength => exact absurd hst (of_decide_eq_true rfl)
  | lengthRejected e l c _ hc => exact absurd (lengthCheck_protocolError hc) (hcause hst)
  | frame e l _ hh _ _ ht =>
    have hm : (headerOf b0 b1).masked = true := by
      cases ht with
      | shortKey hm => exact hm
      | shortPayload | noRoom | ok => exact absurd hst (of_decide_eq_true rfl)
    obtain ⟨-, -, hrole, -⟩ := hh
    refine ⟨hm, Bool.eq_false_iff.2 fun hclient => ?_⟩
    simp [hrole hclient] at hm

/-! ## Partial reads -/

/-- A byte 0 is the one written from its fields (30_encoding.md R86). -/
theorem byte0Of_byte0Op_byte0Fin_byte0Rsv : ∀ b : Byte, byte0Of (byte0Op b) (byte0Fin b) (byte0Rsv b) = b := by
  decide +kernel

/-- DECODE ends OK only on a whole accepted frame (41_decode.md R153). -/
theorem wholeFrame_of_ok {s t : State} (ht : exec .decode s = .next t) (hst : t.status = 0x00000001) :
    ∃ b0 b1 e key data, FirstBytes s b0 b1 ∧ LengthPresent s (headerOf b0 b1) e data.length ∧
      WholeFrame s (headerOf b0 b1) e key data := by
  obtain hearly | ⟨hr, b0, b1, hb, ht⟩ := exec_decode_ends ht
  · rw [hst] at hearly
    exact absurd hearly (by decide)
  cases ht with
  | rejected c => exact absurd hst (statusOf_ne_ok c)
  | shortLength => exact absurd hst (of_decide_eq_true rfl)
  | lengthRejected e l c => exact absurd hst (statusOf_ne_ok c)
  | frame e l _ hh hl ha ht =>
    cases ht with
    | shortKey | shortPayload | noRoom => exact absurd hst (of_decide_eq_true rfl)
    | ok key data hm hdl hkey hdata hsrc hdst =>
      subst hdl
      obtain ⟨hext, hfit, hbytes, hlen⟩ := hl
      obtain ⟨hlen2, h0, h1⟩ := hb
      have hwire0 := congrArg some (byte0Of_byte0Op_byte0Fin_byte0Rsv b0)
      have hwire1 := congrArg some (byte1Of_byte1Masked_byte1Len7 b1)
      rw [frameHdrLen_eq_length hext hm] at hdata
      rw [← length_wireFrame hext hm] at hsrc
      exact ⟨b0, b1, e, key, data, ⟨hlen2, h0, h1⟩, ⟨hext, hfit, hbytes, hlen⟩, hr, hh, hext, hm, hlen, ha, hsrc, hdst,
        bytesAt_wireFrame.2 ⟨h0.trans hwire0.symm, h1.trans hwire1.symm, hbytes, hext ▸ hkey, hdata⟩⟩

theorem keyPresent_of_wholeFrame {s : State} {h : FrameHeader} {e data : List Byte} {key : Option Word}
    (hw : WholeFrame s h e key data) : KeyPresent s h := by
  obtain ⟨-, -, -, hkey, -⟩ := bytesAt_wireFrame.1 hw.bytes
  cases key with
  | none => exact .inr hw.keyPresent
  | some k => exact .inl ⟨keyBytes k, beBytes_length _ 4, hw.extLength ▸ hkey⟩

/-- The prologue passes with a shorter source region too (20_memory.md R70). -/
theorem regionsPass_of_shorter {s : State} {n : Word} (hr : RegionsPass s) (hn : n.toNat ≤ s.srcLen.toNat) :
    RegionsPass { s with srcLen := n } := by
  obtain ⟨hsrc, hdst, hovl⟩ := hr
  refine ⟨?_, hdst, ?_⟩ <;> simp only [SrcFits, Overlapping] at * <;> omega

/-- The same frame in another buffer, with any SRC_LEN that covers it. -/
theorem wholeFrame_of_sameBytes {s : State} {h : FrameHeader} {e data : List Byte} {key : Option Word} {n : Word}
    {m : Memory} (hw : WholeFrame s h e key data) (hr : RegionsPass { s with srcLen := n })
    (hn : (wireFrame h e key data).length ≤ n.toNat)
    (hm : ∀ i < (wireFrame h e key data).length, m.read (s.srcAddr.toNat + i) = s.buf.read (s.srcAddr.toNat + i)) :
    WholeFrame { s with srcLen := n, buf := m } h e key data :=
  ⟨hr, hw.header, hw.extLength, hw.keyPresent, hw.dataLength, hw.accepted, hn, hw.room,
    fun i hi => (hm i hi).trans (hw.bytes i hi)⟩

/-- Settles O32: an OK ending shows a whole frame in the source; a shorter SRC_LEN cuts it, and a longer one with the same
frame gives the same ending. -/
theorem partialReadResilience : Obligations.PartialReadResilience := by
  intro s t ht hst
  obtain ⟨b0, b1, e, key, data, hb, hl, hw⟩ := wholeFrame_of_ok ht hst
  obtain rfl : decoded s (headerOf b0 b1) e key data = t :=
    Host.Outcome.next.inj ((exec_decode_of_wholeFrame hw).symm.trans ht)
  have hlen : (wireFrame (headerOf b0 b1) e key data).length = frameHdrLen (headerOf b0 b1) + data.length :=
    length_wireFrame hw.extLength hw.keyPresent
  have hconsumed : (decoded s (headerOf b0 b1) e key data).rConsumed.toNat
      = (wireFrame (headerOf b0 b1) e key data).length := toNat_lowWord (Nat.lt_of_le_of_lt hw.present s.srcLen.isLt)
  rw [hconsumed]
  refine ⟨fun n hn => ?_, fun n m hn hm hr => ?_⟩
  · have hr : RegionsPass { s with srcLen := n } := regionsPass_of_shorter hw.regions (hn.le.trans hw.present)
    exact exec_decode_of_cutFrame hr hb hw.header hl hw.accepted (keyPresent_of_wholeFrame hw) (hlen ▸ hn)
  · have hdecode := exec_decode_of_wholeFrame (wholeFrame_of_sameBytes hw hr hn hm)
    have hlt : data.length < 0x10000000000000000 := hw.dataLength ▸ wireLength_lt hw.extLength
    refine ⟨_, hdecode, rfl, rfl, rfl, rfl, rfl, rfl, fun i hi => ?_⟩
    have hi : i < (maskedWith key data).length := by
      rw [maskedWith_length]
      exact highWord_lowWord hlt ▸ hi
    exact (Memory.read_writeBytes_inside _ m _ i hi).trans (Memory.read_writeBytes_inside _ s.buf _ i hi).symm

end Sys2Proof.Machine
end

section
/-!
PROOFS. ENCODE (42_encode.md): the length form it chooses, the arguments it accepts and refuses, the frame it writes, the draws
it takes, and the round trip through DECODE (R180).
-/

namespace Sys2Proof.Machine

open Sys2Proof.Stated

/-! ## The length form -/

theorem getElem?_beBytes (v n i : Nat) (hi : i < n) :
    (beBytes v n)[i]? = some (BitVec.ofNat 8 (v / 256 ^ (n - 1 - i))) := by
  induction n generalizing i with
  | zero => exact absurd hi (Nat.not_lt_zero _)
  | succ n ih =>
    cases i with
    | zero => rfl
    | succ i =>
      have hindex : n + 1 - 1 - (i + 1) = n - 1 - i := by omega
      rw [beBytes, List.getElem?_cons_succ, ih i (Nat.lt_of_succ_lt_succ hi), hindex]

/-- The three length forms of 42_encode.md R173: the base field and the extended bytes for a payload length. -/
inductive LengthForm (l : Nat) : BitVec 7 → List Byte → Prop where
  | base (hl : l ≤ 125) : LengthForm l (BitVec.ofNat 7 l) []
  | twoBytes (hlow : 126 ≤ l) (hhigh : l ≤ 65535) : LengthForm l 126 (beBytes l 2)
  | eightBytes (hl : 65536 ≤ l) : LengthForm l 127 (beBytes l 8)

/-- ENCODE chooses the form by the payload length. -/
theorem lengthForm_encode (l : Nat) : LengthForm l (encodeLen7 l) (encodeExt l) := by
  unfold encodeLen7 encodeExt
  split_ifs with h125 h65535
  · exact .base h125
  · exact .twoBytes (Nat.not_le.1 h125) h65535
  · exact .eightBytes (Nat.not_le.1 h65535)

section
variable {l : Nat} {len7 : BitVec 7} {ext : List Byte}

theorem toNat_len7_of_le (hl : l ≤ 125) : (BitVec.ofNat 7 l).toNat = l := by
  rw [BitVec.toNat_ofNat, Nat.mod_eq_of_lt (by omega)]

/-- A base field of at most 125 is no mark of an extended length. -/
theorem len7_ne_of_le (h7 : len7.toNat ≤ 125) : len7 ≠ 126 ∧ len7 ≠ 127 := by
  constructor <;> rintro rfl <;> exact absurd h7 (by decide)

theorem LengthForm.length_ext (h : LengthForm l len7 ext) : ext.length = extLen len7 := by
  cases h with
  | base hl =>
    obtain ⟨h126, h127⟩ := len7_ne_of_le ((toNat_len7_of_le hl).trans_le hl)
    rw [extLen, if_neg h126, if_neg h127, List.length_nil]
  | twoBytes | eightBytes => exact beBytes_length l _

theorem LengthForm.wireLength_eq (h : LengthForm l len7 ext) (hlt : l < 0x100000000) : wireLength len7 ext = l := by
  cases h with
  | base hl => rw [wireLength, if_pos ((toNat_len7_of_le hl).trans_le hl), toNat_len7_of_le hl]
  | twoBytes _ hhigh =>
    rw [wireLength, if_neg (by decide), ← beValue_eq_bigEndian, beValue_beBytes, Nat.mod_eq_of_lt (by omega)]
  | eightBytes => rw [wireLength, if_neg (by decide), ← beValue_eq_bigEndian, beValue_beBytes, Nat.mod_eq_of_lt (by omega)]

/-- No shorter form holds the length (42_encode.md R174). -/
theorem LengthForm.minimal (h : LengthForm l len7 ext) : (len7 = 126 → 126 ≤ l) ∧ (len7 = 127 → 65536 ≤ l) := by
  cases h with
  | base hl =>
    obtain ⟨h126, h127⟩ := len7_ne_of_le ((toNat_len7_of_le hl).trans_le hl)
    exact ⟨fun e => absurd e h126, fun e => absurd e h127⟩
  | twoBytes hlow => exact ⟨fun _ => hlow, nofun⟩
  | eightBytes hl => exact ⟨nofun, fun _ => hl⟩

/-- A minimal form passes both length checks of DECODE (41_decode.md R147, R148). -/
theorem LengthForm.lengthCheck_eq_none (h : LengthForm l len7 ext) (hlt : l < 0x100000000) (strict : Bool) :
    lengthCheck strict len7 l = none := by
  obtain ⟨h126, h127⟩ := h.minimal
  have hmsb : ¬ 0x8000000000000000 ≤ l := by omega
  have hminimal : ¬ ((len7 = 126 ∧ l < 126) ∨ (len7 = 127 ∧ l < 65536)) := by
    rintro (⟨e, hl⟩ | ⟨e, hl⟩)
    · exact Nat.not_lt.2 (h126 e) hl
    · exact Nat.not_lt.2 (h127 e) hl
  rw [lengthCheck, if_neg fun ⟨_, hl⟩ => hmsb hl, if_neg fun ⟨_, hl⟩ => hminimal hl]

end

/-- Settles O36, from the sum of 00_scope.md R11 and the form ENCODE chooses for the length. -/
theorem encodedLengthIsMinimalAndBigEndian : Obligations.EncodedLengthIsMinimalAndBigEndian := by
  refine ⟨beValue_eq_bigEndian, fun v n => ⟨beBytes_length v n, getElem?_beBytes v n⟩, fun l strict hlt => ?_⟩
  have hform : LengthForm l (encodeLen7 l) (encodeExt l) := lengthForm_encode l
  exact ⟨hform.length_ext, hform.wireLength_eq hlt, hform.minimal, hform.lengthCheck_eq_none hlt strict⟩

/-! ## The arguments -/

section
variable {s : State} {fop : BitVec 4} {fin msk : Bool}

theorem exec_encode_of_regionsPass (hr : RegionsPass s) :
    exec (.encode fop fin msk) s = encodeBody fop fin msk s.clearResults := withSrcDst_pass hr

/-- An argument set that breaks the data model (42_encode.md R172). -/
theorem exec_encode_of_rejected {c : Cause} (hr : RegionsPass s)
    (hc : encodeCheck (ctrlClient s.ctrl) fop fin msk s.srcLen.toNat = some c) :
    exec (.encode fop fin msk) s = .next (outcome s (statusOf c) 0 0 0 0) := by
  rw [exec_encode_of_regionsPass hr, ← raise_clearResults]
  simp only [encodeBody, State.clearResults_ctrl, State.clearResults_srcLen, hc]

/-- A frame that does not fit in DST_CAP (42_encode.md R176). -/
theorem exec_encode_of_noRoom (hr : RegionsPass s)
    (hc : encodeCheck (ctrlClient s.ctrl) fop fin msk s.srcLen.toNat = none)
    (hroom : s.dstCap.toNat < lawHdrLen s.srcLen.toNat msk + s.srcLen.toNat) :
    exec (.encode fop fin msk) s = .next (outcome s (statusOf .dstTooSmall) 0 0 0 0) := by
  rw [← encodeHdrLen_eq_lawHdrLen] at hroom
  rw [exec_encode_of_regionsPass hr, ← raise_clearResults]
  simp only [encodeBody, State.clearResults_ctrl, State.clearResults_srcLen, hc]
  exact if_pos hroom

/-- What the argument checks of 42_encode.md R172 leave. -/
theorem encodeCheck_eq_none {client : Bool} {l : Nat} (hc : encodeCheck client fop fin msk l = none) :
    GoodOpcode fop ∧ (ControlOpcode fop → fin = true ∧ l ≤ 125) ∧ (client = true → msk = true) := by
  unfold encodeCheck at hc
  split_ifs at hc with hres hfin hlong hmsk
  have hgood : GoodOpcode fop := (isReserved_eq_false_iff fop).1 (by simpa using hres)
  refine ⟨hgood, fun hcontrol => ?_, fun hclient => by simpa [hclient] using hmsk⟩
  have hcontrol : isControl fop = true := (isControl_iff_of_good fop hgood).2 hcontrol
  exact ⟨by simpa [hcontrol] using hfin, by simpa [hcontrol] using hlong⟩

end

/-- Settles O33: the prologue passes, then the argument checks and the capacity are judged in this order. -/
theorem encodeRefusals : Obligations.EncodeRefusals := by
  refine fun s fop fin msk hr => ⟨fun st hst => ?_, fun hnone hroom => ?_⟩
  · rw [argumentStatus_eq, Option.map_eq_some_iff] at hst
    obtain ⟨c, hc, rfl⟩ := hst
    exact exec_encode_of_rejected hr hc
  · rw [argumentStatus_eq, Option.map_eq_none_iff] at hnone
    exact exec_encode_of_noRoom hr hnone hroom

/-! ## The frame ENCODE writes -/

/-- The header of the frame for a payload length (42_encode.md R173, R175). -/
abbrev encodedHeader (fop : BitVec 4) (fin msk : Bool) (l : Nat) : FrameHeader := ⟨fop, 0, fin, msk, encodeLen7 l⟩

/-- What ENCODE leaves after it wrote the frame of a payload (42_encode.md R175-R179). -/
def encoded (s : State) (fop : BitVec 4) (fin msk : Bool) (p : List Byte) : State :=
  { outcome s 0x00000001 (headerWord (encodedHeader fop fin msk p.length) true) p.length
      (lawHdrLen p.length msk + p.length) 0 with
    buf := s.buf.writeBytes s.dstAddr.toNat (encodedFrame s fop fin msk p)
    maskKey := (keyUsed s msk).getD s.maskKey
    draws := s.draws + if msk = true ∧ ctrlKeySrc s.ctrl = false then 1 else 0 }

/-- The source region holds this payload, ENCODE accepts its arguments, and its frame fits. -/
structure Encodable (s : State) (fop : BitVec 4) (fin msk : Bool) (p : List Byte) : Prop where
  length : p.length = s.srcLen.toNat
  bytes : BytesAt s.buf s.srcAddr.toNat p
  arguments : encodeCheck (ctrlClient s.ctrl) fop fin msk p.length = none
  room : lawHdrLen p.length msk + p.length ≤ s.dstCap.toNat

section
variable {s t : State} {fop : BitVec 4} {fin msk : Bool} {p : List Byte}

theorem encodeKey_eq_keyUsed (s : State) (msk : Bool) : (encodeKey msk s).1 = keyUsed s msk := by
  unfold encodeKey keyUsed
  split_ifs <;> rfl

theorem keyUsed_isSome (s : State) (msk : Bool) : (keyUsed s msk).isSome = msk := by
  rw [← encodeKey_eq_keyUsed, encodeKey_isSome]

/-- ENCODE's header length is that of its frame (30_encoding.md R90), so that of 42_encode.md R181. -/
theorem frameHdrLen_encodedHeader (fop : BitVec 4) (fin msk : Bool) (l : Nat) :
    frameHdrLen (encodedHeader fop fin msk l) = lawHdrLen l msk := by
  rw [← encodeHdrLen_eq_lawHdrLen, encodeHdrLen, (lengthForm_encode l).length_ext]
  rfl

theorem encodeFrameWord_eq_headerWord (fop : BitVec 4) (fin msk : Bool) (l : Nat) :
    encodeFrameWord fop fin msk l = headerWord (encodedHeader fop fin msk l) true := by
  rw [encodeFrameWord, encodeHdrLen_eq_lawHdrLen, ← frameHdrLen_encodedHeader fop fin]
  rfl

/-- The bytes ENCODE stores are its frame in wire order (30_encoding.md R85). -/
theorem encodeBytes_eq_wireFrame (fop : BitVec 4) (fin : Bool) (key : Option Word) (p : List Byte) :
    encodeBytes fop fin key p
      = wireFrame (encodedHeader fop fin key.isSome p.length) (encodeExt p.length) key (maskedWith key p) := by
  cases key <;> rfl

theorem encodeBytes_eq_encodedFrame (s : State) (fop : BitVec 4) (fin msk : Bool) (p : List Byte) :
    encodeBytes fop fin (keyUsed s msk) p = encodedFrame s fop fin msk p := by
  rw [encodeBytes_eq_wireFrame, keyUsed_isSome, encodedFrame]

theorem length_encodedFrame (s : State) (fop : BitVec 4) (fin msk : Bool) (p : List Byte) :
    (encodedFrame s fop fin msk p).length = lawHdrLen p.length msk + p.length := by
  rw [← encodeBytes_eq_encodedFrame, encodeBytes_length, keyUsed_isSome, encodeHdrLen_eq_lawHdrLen]

/-- The OK ending of ENCODE in the words of its rules. -/
theorem succeeded_eq_encoded (s : State) (fop : BitVec 4) (fin msk : Bool) (p : List Byte) :
    succeeded s (encodeFrameWord fop fin msk p.length) p.length (encodeHdrLen msk p.length + p.length)
      (encodeBytes fop fin (encodeKey msk s).1 p) (encodeKey msk s).1
      (s.draws + if msk = true ∧ ctrlKeySrc s.ctrl = false then 1 else 0) = encoded s fop fin msk p := by
  rw [encodeKey_eq_keyUsed, encodeBytes_eq_encodedFrame, encodeFrameWord_eq_headerWord, encodeHdrLen_eq_lawHdrLen]
  rfl

/-- ENCODE of an accepted payload writes its frame. -/
theorem exec_encode_of_encodable (hr : RegionsPass s) (hp : Encodable s fop fin msk p) :
    exec (.encode fop fin msk) s = .next (encoded s fop fin msk p) := by
  obtain ⟨hlen, hbytes, harg, hroom⟩ := hp
  have hread : s.clearResults.readBytes s.srcAddr.toNat p.length = .ok p := State.readBytes_bytesAt hbytes rfl
  have hnone : argumentStatus (ctrlClient s.ctrl) fop fin msk s.srcLen.toNat = none := by
    rw [argumentStatus_eq, ← hlen, harg]
    rfl
  rw [exec_encode_of_fits hr hnone (hlen ▸ hroom), encodeWrite]
  simp only [State.clearResults_srcAddr, State.clearResults_srcLen, hread, reading_ok, finishOk, encodeKey_state,
    encodeKey_clearResults, State.clearResults_dstAddr, State.clearResults_draws, State.clearResults_ctrl,
    succeeded_encode, ← hlen]
  exact congrArg Host.Outcome.next (succeeded_eq_encoded s fop fin msk p)

/-- ENCODE ends OK only on an accepted payload, after it wrote its frame. -/
theorem encodable_of_ok (ht : exec (.encode fop fin msk) s = .next t) (hst : t.status = 0x00000001) :
    ∃ p, Encodable s fop fin msk p ∧ t = encoded s fop fin msk p := by
  cases execEncode_ends ht with
  | failed c => exact absurd hst (statusOf_ne_ok c)
  | ok p hread _ hfit hchk _ =>
    obtain ⟨hlen, hbytes⟩ := State.readBytes_ok.1 hread
    rw [encodeHdrLen_eq_lawHdrLen] at hfit
    exact ⟨p, ⟨hlen, hbytes, hchk, hfit⟩, succeeded_eq_encoded s fop fin msk p⟩

/-- R_CONSUMED holds the length of the frame (42_encode.md R179). -/
theorem Encodable.rConsumed_encoded (hp : Encodable s fop fin msk p) :
    (encoded s fop fin msk p).rConsumed.toNat = lawHdrLen p.length msk + p.length :=
  toNat_lowWord (Nat.lt_of_le_of_lt hp.room s.dstCap.isLt)

end

/-- Settles O34: the hypotheses say that the payload is encodable, and ENCODE writes the frame of such a payload. -/
theorem encodeWritesTheFrame : Obligations.EncodeWritesTheFrame := by
  intro s fop fin msk p hr hnone hlen hbytes hroom
  rw [argumentStatus_eq, Option.map_eq_none_iff] at hnone
  exact exec_encode_of_encodable hr ⟨hlen, hbytes, hnone, hroom⟩

/-- Settles O35: HDRLEN and R_CONSUMED are those of the frame ENCODE wrote. -/
theorem encodedHeaderLengthLaw : Obligations.EncodedHeaderLengthLaw := by
  intro s t fop fin msk ht hst
  obtain ⟨p, hp, rfl⟩ := encodable_of_ok ht hst
  obtain ⟨-, -, -, -, -, hlen, -⟩ := frameRegisterAndByteLayout.1 (encodedHeader fop fin msk p.length) true
  have hhdr : ((encoded s fop fin msk p).rFrame.extractLsb' 16 4).toNat = lawHdrLen s.srcLen.toNat msk := by
    rw [← hp.length, ← frameHdrLen_encodedHeader fop fin]
    exact hlen
  exact ⟨hhdr, by rw [hhdr, hp.rConsumed_encoded, hp.length]⟩

/-! ## Draws -/

/-- Only a masked ENCODE that ends OK under KEYSRC = 0 changes the count of draws (20_memory.md R71). -/
theorem exec_keeps_draws {i : Instr} {s t : State} (e : exec i s = .next t)
    (hno : ¬ ((∃ fop fin, i = .encode fop fin true) ∧ ctrlKeySrc s.ctrl = false ∧ t.status = 0x00000001)) :
    t.draws = s.draws := by
  cases exec_ends e with
  | encode fop fin msk hi h =>
    cases h with
    | failed => rfl
    | ok p =>
      have hdraw : ¬ (msk = true ∧ ctrlKeySrc s.ctrl = false) := fun ⟨hm, hsrc⟩ =>
        hno ⟨⟨fop, fin, hm ▸ hi⟩, hsrc, rfl⟩
      exact congrArg (s.draws + ·) (if_neg hdraw)
  | decode _ h => cases h <;> rfl
  | mask _ h => cases h <;> rfl
  | validate _ h => cases h <;> rfl
  | clear _ h | illegal _ _ h => exact h ▸ rfl

/-- Settles O19: an OK masked ENCODE leaves the key it used in MASKKEY, one that fails leaves MASKKEY, and no other command
draws. -/
theorem drawsAreTakenOnlyByEncode : Obligations.DrawsAreTakenOnlyByEncode := by
  refine fun i s t e => ⟨?_, exec_keeps_draws e, ?_⟩
  · rintro ⟨⟨fop, fin, rfl⟩, hsrc, hst⟩
    obtain ⟨p, -, rfl⟩ := encodable_of_ok e hst
    simp [encoded, keyUsed, hsrc]
  · rintro ⟨fop, fin, rfl⟩ hsrc
    by_cases hst : t.status = 0x00000001
    · obtain ⟨p, -, rfl⟩ := encodable_of_ok e hst
      simp [encoded, keyUsed, hsrc]
    · exact congrArg (·.maskKey) ((exec_leaves e).outcome_only hst)

/-! ## The round trip -/

/-- Masking twice under one key gives the payload back (30_encoding.md R93). -/
theorem maskedWith_maskedWith (key : Option Word) (bs : List Byte) : maskedWith key (maskedWith key bs) = bs := by
  cases key with
  | none => rfl
  | some k => exact xorFrom_xorFrom k 0 bs

section
variable {s t d : State} {fop : BitVec 4} {fin msk : Bool} {p : List Byte}

/-- The header ENCODE writes passes every check of DECODE in loopback role (41_decode.md R144). -/
theorem Encodable.headerAccepted (hp : Encodable s fop fin msk p) (hloop : ctrlClient d.ctrl = false) :
    HeaderAccepted d (encodedHeader fop fin msk p.length) := by
  obtain ⟨hgood, hcontrol, -⟩ := encodeCheck_eq_none hp.arguments
  refine ⟨rfl, hgood, fun hclient => absurd (hloop.symm.trans hclient) (by decide), fun hc => ?_⟩
  obtain ⟨hfin, hshort⟩ := hcontrol hc
  have hlen7 : encodeLen7 p.length = BitVec.ofNat 7 p.length := if_pos hshort
  exact ⟨hfin, ((congrArg BitVec.toNat hlen7).trans (toNat_len7_of_le hshort)).trans_le hshort⟩

/-- What ENCODE wrote is a whole frame for a DECODE in loopback role whose source is exactly that frame. -/
theorem wholeFrame_of_encoded (hp : Encodable s fop fin msk p) (hbuf : d.buf = (encoded s fop fin msk p).buf)
    (hloop : ctrlClient d.ctrl = false) (haddr : d.srcAddr = s.dstAddr)
    (hlen : d.srcLen = (encoded s fop fin msk p).rConsumed) (hcap : p.length ≤ d.dstCap.toNat) (hr : RegionsPass d) :
    WholeFrame d (encodedHeader fop fin msk p.length) (encodeExt p.length) (keyUsed s msk)
      (maskedWith (keyUsed s msk) p) := by
  have hform : LengthForm p.length (encodeLen7 p.length) (encodeExt p.length) := lengthForm_encode p.length
  have hlt : p.length < 0x100000000 := hp.length ▸ s.srcLen.isLt
  have hframe : (encodedFrame s fop fin msk p).length = d.srcLen.toNat := by
    rw [length_encodedFrame, hlen, hp.rConsumed_encoded]
  exact {
    regions := hr
    header := hp.headerAccepted hloop
    extLength := hform.length_ext
    keyPresent := (keyUsed_isSome s msk).symm
    dataLength := (maskedWith_length ..).trans (hform.wireLength_eq hlt).symm
    accepted := by
      rw [maskedWith_length]
      exact lengthAccepted_of_lengthCheck (hform.lengthCheck_eq_none hlt _)
    present := hframe.le
    room := (maskedWith_length ..).trans_le hcap
    bytes := by
      rw [hbuf, haddr]
      exact Memory.read_writeBytes_inside (encodedFrame s fop fin msk p) s.buf s.dstAddr.toNat }

/-- What DECODE leaves after a frame of ENCODE: the same description, the key used, and the payload. -/
theorem decoded_encodedFrame (d s : State) (fop : BitVec 4) (fin msk : Bool) (p : List Byte) :
    decoded d (encodedHeader fop fin msk p.length) (encodeExt p.length) (keyUsed s msk) (maskedWith (keyUsed s msk) p)
      = { outcome d 0x00000001 (headerWord (encodedHeader fop fin msk p.length) true) p.length
            (lawHdrLen p.length msk + p.length) 0 with
          buf := d.buf.writeBytes d.dstAddr.toNat p, maskKey := (keyUsed s msk).getD d.maskKey } := by
  rw [decoded, maskedWith_maskedWith, maskedWith_length, ← length_encodedFrame s fop fin]
  rfl

/-- In client role ENCODE refuses MSK = 0 (42_encode.md R172). -/
theorem exec_encode_unmasked_of_client (hclient : ctrlClient s.ctrl = true) (ht : exec (.encode fop fin false) s = .next t) :
    t.status ≠ 0x00000001 := by
  intro hst
  obtain ⟨p, hp, -⟩ := encodable_of_ok ht hst
  obtain ⟨-, -, hmsk⟩ := encodeCheck_eq_none hp.arguments
  exact Bool.false_ne_true (hmsk hclient)

/-- In client role DECODE accepts no masked frame (41_decode.md R144). -/
theorem exec_decode_unmasked_of_client (hclient : ctrlClient s.ctrl = true) (ht : exec .decode s = .next t)
    (hst : t.status = 0x00000001) : t.rFrame.getLsbD 8 = false := by
  obtain ⟨b0, b1, e, key, data, -, -, hw⟩ := wholeFrame_of_ok ht hst
  obtain ⟨-, -, hmasked, -⟩ := hw.header
  cases (exec_decode_of_wholeFrame hw).symm.trans ht
  exact (frameWord_masked ..).trans (hmasked hclient)

end

/-- Settles O37: in loopback role the frame ENCODE wrote is a whole frame for DECODE, and masking is undone under the key that
stands in the frame. -/
theorem roundTripInLoopback : Obligations.RoundTripInLoopback := by
  refine ⟨fun s t d fop fin msk _ ht hst hbuf hloop haddr hlen hcap hr => ?_, fun s t fop fin hclient =>
    ⟨exec_encode_unmasked_of_client hclient, exec_decode_unmasked_of_client hclient⟩⟩
  obtain ⟨p, hp, rfl⟩ := encodable_of_ok ht hst
  have hdecode := exec_decode_of_wholeFrame (wholeFrame_of_encoded hp hbuf hloop haddr hlen (hp.length ▸ hcap) hr)
  rw [decoded_encodedFrame] at hdecode
  refine ⟨_, hdecode, rfl, rfl, rfl, rfl, rfl,
    hp.length ▸ hp.rConsumed_encoded, fun hm => ?_, fun i hi => ?_⟩
  · obtain ⟨k, hk⟩ := Option.isSome_iff_exists.1 ((keyUsed_isSome s msk).trans hm)
    simp [encoded, hk]
  · have hi : i < p.length := hp.length ▸ hi
    exact (Memory.read_writeBytes_inside p d.buf _ i hi).trans (hp.bytes i hi).symm

end Sys2Proof.Machine
end

section
/-!
PROOFS. MASK (43_mask.md): how it ends, that a second MASK undoes the first (R192), and that its destination bytes are those of
ENCODE and DECODE under the same key (R193).
-/

namespace Sys2Proof.Machine

open Sys2Proof.Stated

/-! ## Runs of bytes -/

section
variable {m m' : Memory} {a a' : Nat} {p q : List Byte}

/-- Addresses that read like a run of bytes hold that run. -/
theorem bytesAt_of_read_eq (h : BytesAt m a p) (heq : ∀ i < p.length, m'.read (a' + i) = m.read (a + i)) :
    BytesAt m' a' p :=
  fun i hi => (heq i hi).trans (h i hi)

/-- Two places that hold one run of bytes read alike. -/
theorem read_eq_of_bytesAt (h : BytesAt m a p) (h' : BytesAt m' a' p) {i : Nat} (hi : i < p.length) :
    m.read (a + i) = m'.read (a' + i) :=
  (h i hi).trans (h' i hi).symm

theorem bytesAt_unique (h : BytesAt m a p) (h' : BytesAt m a q) (hlen : p.length = q.length) : p = q :=
  List.ext_getElem hlen fun i hi hi' => Option.some.inj ((h i hi).symm.trans (h' i hi'))

/-- Writing a run of bytes back over another one of its length restores the memory. -/
theorem read_writeBytes_back_of_bytesAt (h : BytesAt m a p) (hlen : q.length = p.length) (x : Nat) :
    ((m.writeBytes a q).writeBytes a p).read x = m.read x := by
  by_cases hx : a ≤ x ∧ x < a + p.length
  · obtain ⟨i, rfl⟩ := Nat.exists_eq_add_of_le hx.1
    exact read_eq_of_bytesAt (Memory.read_writeBytes_inside p _ a) h (Nat.lt_of_add_lt_add_left hx.2)
  · have hx : x < a ∨ a + p.length ≤ x := by omega
    rw [Memory.read_writeBytes_outside p _ a x hx, Memory.read_writeBytes_outside q m a x (hlen ▸ hx)]

end

/-! ## How MASK ends -/

/-- The source region holds these bytes, and MASK gets to store them (43_mask.md R190). -/
structure Maskable (s : State) (p : List Byte) : Prop where
  regions : MaskRegionsPass s
  length : p.length = s.srcLen.toNat
  bytes : BytesAt s.buf s.srcAddr.toNat p
  room : s.srcLen.toNat ≤ s.dstCap.toNat

/-- What MASK leaves after it stored its source bytes under the kernel (43_mask.md R190). -/
def kernelStored (s : State) (p : List Byte) : State :=
  { outcome s 0x00000001 0 0 p.length 0 with buf := s.buf.writeBytes s.dstAddr.toNat (xorMask s.maskKey p) }

section
variable {s t : State} {p : List Byte}

/-- A source longer than DST_CAP (43_mask.md R190). -/
theorem exec_mask_of_noRoom (hr : MaskRegionsPass s) (hroom : s.dstCap.toNat < s.srcLen.toNat) :
    exec .mask s = .next (outcome s (statusOf .dstTooSmall) 0 0 0 0) :=
  calc exec .mask s = maskBody s.clearResults := withSrcDstInPlace_pass hr
    _ = raise .dstTooSmall s.clearResults := if_pos hroom
    _ = .next (outcome s (statusOf .dstTooSmall) 0 0 0 0) := raise_clearResults .dstTooSmall s

theorem exec_mask_of_maskable (hp : Maskable s p) : exec .mask s = .next (kernelStored s p) := by
  have hread : s.clearResults.readBytes s.srcAddr.toNat s.srcLen.toNat = .ok p :=
    State.readBytes_bytesAt hp.bytes hp.length
  rw [exec_mask_of_fits hp.regions hp.room, hread, reading_ok, finishOk, succeeded_mask, ← hp.length]
  rfl

/-- The prologue of MASK passes only where its three checks do (40_dispatch.md R124). -/
theorem not_overlapping_or_inPlace (h : (overlap (srcRegion s) (dstRegion s) && s.srcAddr != s.dstAddr) = false) :
    ¬ Overlapping s ∨ s.srcAddr = s.dstAddr := by
  obtain hovl | heq := Bool.and_eq_false_iff.1 h
  · exact .inl (of_decide_eq_false hovl)
  · exact .inr (bne_eq_false_iff_eq.1 heq)

/-- MASK ends OK only after it stored its source bytes under the kernel. -/
theorem maskable_of_ok (ht : exec .mask s = .next t) (hst : t.status = 0x00000001) :
    ∃ p, Maskable s p ∧ t = kernelStored s p := by
  cases execMask_ends ht with
  | failed c => exact absurd hst (statusOf_ne_ok c)
  | ok p hread hdst hfit hsrc hovl =>
    obtain ⟨hlen, hbytes⟩ := State.readBytes_ok.1 hread
    exact ⟨p, ⟨⟨hsrc, hdst, not_overlapping_or_inPlace hovl⟩, hlen, hbytes, hlen ▸ hfit⟩, rfl⟩

/-- Where MASK ends OK, its destination holds the bytes of its source under the kernel. -/
theorem bytesAt_of_mask_ok (ht : exec .mask s = .next t) (hst : t.status = 0x00000001)
    (hbytes : BytesAt s.buf s.srcAddr.toNat p) (hlen : p.length = s.srcLen.toNat) :
    BytesAt t.buf s.dstAddr.toNat (xorMask s.maskKey p) := by
  obtain ⟨q, hq, rfl⟩ := maskable_of_ok ht hst
  obtain rfl : p = q := bytesAt_unique hbytes hq.bytes (hlen.trans hq.length.symm)
  exact Memory.read_writeBytes_inside _ _ _

end

/-- Settles O39: the prologue passes, then the capacity decides. -/
theorem maskStoresTheKernel : Obligations.MaskStoresTheKernel :=
  fun _ hr => ⟨exec_mask_of_noRoom hr,
    fun _ hlen hbytes hroom => exec_mask_of_maskable ⟨hr, hlen, hbytes, hroom⟩⟩

/-! ## The involution law -/

theorem xorMask_xorMask (k : Word) (bs : List Byte) : xorMask k (xorMask k bs) = bs := xorFrom_xorFrom k 0 bs

/-- After MASK in place the same region can be masked again. -/
theorem Maskable.kernelStored_inPlace {s : State} {p : List Byte} (hp : Maskable s p) (haddr : s.srcAddr = s.dstAddr) :
    Maskable (kernelStored s p) (xorMask s.maskKey p) where
  regions := hp.regions
  length := (xorMask_length ..).trans hp.length
  bytes := by
    rw [show (kernelStored s p).srcAddr = s.dstAddr from haddr]
    exact Memory.read_writeBytes_inside _ _ _
  room := hp.room

/-- Settles O40: the second MASK finds the bytes the first one stored and stores them under the kernel again; in place, they
go back to where they stood. -/
theorem maskTwiceRestores : Obligations.MaskTwiceRestores := by
  refine ⟨fun s t ht hst haddr => ?_, fun s t v u ht hst hbuf hkey haddr hlen hu hust i hi => ?_⟩
  · obtain ⟨p, hp, rfl⟩ := maskable_of_ok ht hst
    refine ⟨_, exec_mask_of_maskable (hp.kernelStored_inPlace haddr), rfl, fun a => ?_⟩
    have hback : (kernelStored (kernelStored s p) (xorMask s.maskKey p)).buf
        = (s.buf.writeBytes s.dstAddr.toNat (xorMask s.maskKey p)).writeBytes s.dstAddr.toNat p :=
      congrArg (Memory.writeBytes _ _) (xorMask_xorMask s.maskKey p)
    rw [hback]
    exact read_writeBytes_back_of_bytesAt (haddr ▸ hp.bytes) (xorMask_length ..) a
  · obtain ⟨p, hp, rfl⟩ := maskable_of_ok ht hst
    have hsrc : BytesAt v.buf v.srcAddr.toNat (xorMask s.maskKey p) := by
      rw [hbuf, haddr]
      exact Memory.read_writeBytes_inside _ _ _
    have hdst := bytesAt_of_mask_ok hu hust hsrc (by rw [xorMask_length, hp.length, hlen])
    rw [hkey, xorMask_xorMask] at hdst
    exact read_eq_of_bytesAt hdst hp.bytes (hp.length ▸ hi)

/-! ## Agreement with the codec -/

section
variable {s t : State}

/-- The payload of a frame stands after its header (30_encoding.md R85, R90). -/
theorem bytesAt_payload_of_wireFrame {m : Memory} {a : Nat} {h : FrameHeader} {ext data : List Byte} {key : Option Word}
    (hext : ext.length = extLen h.len7) (hkey : h.masked = key.isSome) (hbytes : BytesAt m a (wireFrame h ext key data)) :
    BytesAt m (a + frameHdrLen h) data := by
  obtain ⟨-, -, -, -, hdata⟩ := bytesAt_wireFrame.1 hbytes
  rwa [frameHdrLen_eq_length hext hkey]

theorem headerWord_hdrLen (h : FrameHeader) (lv : Bool) : ((headerWord h lv).extractLsb' 16 4).toNat = frameHdrLen h := by
  obtain ⟨-, -, -, -, -, hlen, -⟩ := frameRegisterAndByteLayout.1 h lv
  exact hlen

/-- What an OK ENCODE with MSK = 1 leaves after its header: the payload under the kernel with the key it left in MASKKEY
(42_encode.md R177, R178). -/
theorem bytesAt_payload_of_encode_ok {fop : BitVec 4} {fin : Bool} (ht : exec (.encode fop fin true) s = .next t)
    (hst : t.status = 0x00000001) :
    ∃ p, p.length = s.srcLen.toNat ∧ BytesAt s.buf s.srcAddr.toNat p ∧
      BytesAt t.buf (s.dstAddr.toNat + (t.rFrame.extractLsb' 16 4).toNat) (xorMask t.maskKey p) := by
  obtain ⟨p, hp, rfl⟩ := encodable_of_ok ht hst
  obtain ⟨k, hk⟩ := Option.isSome_iff_exists.1 (keyUsed_isSome s true)
  have hhdr : ((encoded s fop fin true p).rFrame.extractLsb' 16 4).toNat
      = frameHdrLen (encodedHeader fop fin true p.length) := headerWord_hdrLen ..
  have hmaskKey : (encoded s fop fin true p).maskKey = k := by
    rw [encoded, hk]
    rfl
  have hframe : BytesAt (encoded s fop fin true p).buf s.dstAddr.toNat (encodedFrame s fop fin true p) :=
    Memory.read_writeBytes_inside _ _ _
  rw [encodedFrame, hk] at hframe
  rw [hhdr, hmaskKey]
  exact ⟨p, hp.length, hp.bytes, bytesAt_payload_of_wireFrame (lengthForm_encode p.length).length_ext rfl hframe⟩

/-- What an OK DECODE of a masked frame has read after the header and stores: its payload under the kernel with the key it
left in MASKKEY (41_decode.md R153). -/
theorem bytesAt_payload_of_decode_ok (ht : exec .decode s = .next t) (hst : t.status = 0x00000001)
    (hm : t.rFrame.getLsbD 8 = true) :
    ∃ data, data.length = t.rPaylenLo.toNat ∧
      BytesAt s.buf (s.srcAddr.toNat + (t.rFrame.extractLsb' 16 4).toNat) data ∧
      BytesAt t.buf s.dstAddr.toNat (xorMask t.maskKey data) := by
  obtain ⟨b0, b1, e, key, data, -, -, hw⟩ := wholeFrame_of_ok ht hst
  obtain rfl : decoded s (headerOf b0 b1) e key data = t :=
    Host.Outcome.next.inj ((exec_decode_of_wholeFrame hw).symm.trans ht)
  have hmasked : (headerOf b0 b1).masked = true := (frameWord_masked ..).symm.trans hm
  obtain ⟨k, rfl⟩ := Option.isSome_iff_exists.1 (hw.keyPresent.symm.trans hmasked)
  have hhdr : ((decoded s (headerOf b0 b1) e (some k) data).rFrame.extractLsb' 16 4).toNat
      = frameHdrLen (headerOf b0 b1) := headerWord_hdrLen ..
  rw [hhdr]
  exact ⟨data, (toNat_lowWord (Nat.lt_of_le_of_lt hw.room s.dstCap.isLt)).symm,
    bytesAt_payload_of_wireFrame hw.extLength hw.keyPresent hw.bytes, Memory.read_writeBytes_inside _ _ _⟩

end

/-- Settles O41: ENCODE and DECODE store their payload under the kernel with the key they leave in MASKKEY, and so does MASK
with the same bytes. -/
theorem maskAgreesWithTheCodec : Obligations.MaskAgreesWithTheCodec := by
  refine ⟨fun s t m u fop fin ht hst hu hust hkey hlen hsame i hi => ?_,
    fun s t m u ht hst hm hu hust hkey hlen hsame i hi => ?_⟩
  · obtain ⟨p, hplen, hp, hstored⟩ := bytesAt_payload_of_encode_ok ht hst
    rw [← hplen] at hsame hi
    have hdst := bytesAt_of_mask_ok hu hust (bytesAt_of_read_eq hp hsame) (by rw [hplen, hlen])
    rw [hkey] at hdst
    exact read_eq_of_bytesAt hdst hstored ((xorMask_length ..).symm ▸ hi)
  · obtain ⟨data, hdlen, hdata, hstored⟩ := bytesAt_payload_of_decode_ok ht hst hm
    rw [← hlen] at hdlen
    rw [← hdlen] at hsame hi
    have hdst := bytesAt_of_mask_ok hu hust (bytesAt_of_read_eq hdata hsame) hdlen
    rw [hkey] at hdst
    exact read_eq_of_bytesAt hdst hstored ((xorMask_length ..).symm ▸ hi)

end Sys2Proof.Machine
end

section
/-!
PROOFS. The text functions of VALIDATE (44_validate.md R201, R203, R206, R207): what cutting at CR LF, trimming, the fields of a
line and the comparison of names give.
-/

namespace Sys2Proof.Machine

open Sys2Proof.Stated

/-! ## The status line -/

theorem isPrefixOf_txtStatus (l : List Byte) : txtStatus.isPrefixOf l = true ↔ l.take 12 = txtStatus := by
  rw [List.isPrefixOf_iff_prefix, List.prefix_iff_eq_take, eq_comm]
  rfl

theorem length_ge_of_take_eq_txtStatus {l : List Byte} (h : l.take 12 = txtStatus) : 12 ≤ l.length := by
  have hlen : min 12 l.length = 12 := by rw [← List.length_take, h]; rfl
  omega

/-- Settles O46: beginning with the 12 bytes implies a length of at least 12, and the rest is what the test asks. -/
theorem statusLineTest : Obligations.StatusLineTest := by
  intro l
  have hprefix := isPrefixOf_txtStatus l
  constructor
  · intro h
    obtain ⟨hstart, hrest⟩ := Bool.and_eq_true_iff.1 h
    have htake := hprefix.1 hstart
    exact ⟨length_ge_of_take_eq_txtStatus htake, htake, by simpa [chSP] using hrest⟩
  · rintro ⟨-, htake, hrest⟩
    exact Bool.and_eq_true_iff.2 ⟨hprefix.2 htake, by simpa [chSP] using hrest⟩

/-! ## The lines of a block -/

section
variable {a b : Byte} {l : List Byte} {ls : List (List Byte)} {bs : List Byte}

theorem splitLines_crlf (bs : List Byte) : splitLines (chCR :: chLF :: bs) = [] :: splitLines bs := if_pos ⟨rfl, rfl⟩

/-- Where no CR LF begins, the byte goes on with the first line of what follows. -/
theorem splitLines_cons_of_not_crlf (h : ¬ (a = chCR ∧ b = chLF)) (hl : splitLines (b :: bs) = l :: ls) :
    splitLines (a :: b :: bs) = (a :: l) :: ls := by
  rw [splitLines, if_neg h, hl, consFirst]

/-- There is a first line (44_validate.md R201: |lines| ≥ 1). -/
theorem splitLines_eq_cons (bs : List Byte) : ∃ l ls, splitLines bs = l :: ls := by
  induction bs using splitLines.induct with
  | case1 => exact ⟨[], [], rfl⟩
  | case2 b => exact ⟨[b], [], rfl⟩
  | case3 a b bs h ih =>
    obtain ⟨rfl, rfl⟩ := h
    exact ⟨_, _, splitLines_crlf bs⟩
  | case4 a b bs h ih =>
    obtain ⟨l, ls, hl⟩ := ih
    exact ⟨_, _, splitLines_cons_of_not_crlf h hl⟩

/-- The first line is empty or begins with the first byte of the block. -/
theorem firstLine_head (hl : splitLines (b :: bs) = l :: ls) : ∀ x ∈ l.head?, x = b := by
  cases bs with
  | nil =>
    obtain ⟨rfl, -⟩ := List.cons.inj hl
    simp
  | cons c cs =>
    by_cases h : b = chCR ∧ c = chLF
    · obtain ⟨rfl, rfl⟩ := h
      obtain ⟨rfl, -⟩ := List.cons.inj ((splitLines_crlf cs).symm.trans hl)
      simp
    · obtain ⟨m, ms, hm⟩ := splitLines_eq_cons (c :: cs)
      obtain ⟨rfl, -⟩ := List.cons.inj ((splitLines_cons_of_not_crlf h hm).symm.trans hl)
      simp

/-- A byte before a list joined by CR LF is a byte before the first line. -/
theorem intercalate_cons_head (sep : List Byte) :
    sep.intercalate ((a :: l) :: ls) = a :: sep.intercalate (l :: ls) := by
  cases ls <;> simp [List.intercalate_cons_cons]

/-- Cutting at CR LF loses nothing (44_validate.md R203). -/
theorem intercalate_splitLines (bs : List Byte) : [chCR, chLF].intercalate (splitLines bs) = bs := by
  induction bs using splitLines.induct with
  | case1 | case2 => exact List.intercalate_singleton
  | case3 a b bs h ih =>
    obtain ⟨rfl, rfl⟩ := h
    obtain ⟨l, ls, hl⟩ := splitLines_eq_cons bs
    rw [hl] at ih
    rw [splitLines_crlf, hl, List.intercalate_cons_cons, ih]
    rfl
  | case4 a b bs h ih =>
    obtain ⟨l, ls, hl⟩ := splitLines_eq_cons (b :: bs)
    rw [hl] at ih
    rw [splitLines_cons_of_not_crlf h hl, intercalate_cons_head, ih]

/-- No line holds a CR LF (44_validate.md R203): a byte put before the first line begins none, because that line begins with
the byte that followed. -/
theorem not_crlf_infix_of_mem_splitLines (bs : List Byte) : ∀ l ∈ splitLines bs, ¬ [chCR, chLF] <:+: l := by
  induction bs using splitLines.induct with
  | case1 => simp [splitLines]
  | case2 b => simp [splitLines, List.infix_cons_iff]
  | case3 a b bs h ih =>
    obtain ⟨rfl, rfl⟩ := h
    rw [splitLines_crlf]
    exact List.forall_mem_cons.2 ⟨by simp, ih⟩
  | case4 a b bs h ih =>
    obtain ⟨l, ls, hl⟩ := splitLines_eq_cons (b :: bs)
    rw [hl] at ih
    obtain ⟨hfirst, hothers⟩ := List.forall_mem_cons.1 ih
    rw [splitLines_cons_of_not_crlf h hl]
    refine List.forall_mem_cons.2 ⟨fun hinfix => ?_, hothers⟩
    obtain hstart | hin := List.infix_cons_iff.1 hinfix
    · obtain ⟨ha, t, rfl⟩ := List.cons_prefix_cons.1 hstart
      exact h ⟨ha.symm, (firstLine_head hl chLF rfl).symm⟩
    · exact hfirst hin

theorem take_drop_ne_of_not_infix {p : List Byte} (h : ¬ p <:+: l) (i n : Nat) : (l.drop i).take n ≠ p := by
  rintro rfl
  exact h ((List.take_prefix n _).isInfix.trans (List.drop_suffix i l).isInfix)

end

/-! ## The fields of a line -/

theorem isOWS_iff {b : Byte} : isOWS b = true ↔ SpaceOrTab b := by simp [isOWS, SpaceOrTab, chSP, chHT]

theorem not_spaceOrTab_of_isOWS_eq_false {b : Byte} (h : isOWS b = false) : ¬ SpaceOrTab b := fun hb =>
  absurd (isOWS_iff.2 hb) (by simp [h])

theorem trimOWS_eq_rdropWhile (l : List Byte) : trimOWS l = (l.dropWhile isOWS).rdropWhile isOWS := rfl

/-- `trimOWS` takes SP and HT off both ends. -/
theorem trimOWS_decomposes (l : List Byte) :
    ∃ lead trail, l = lead ++ trimOWS l ++ trail ∧ (∀ x ∈ lead, SpaceOrTab x) ∧ ∀ x ∈ trail, SpaceOrTab x := by
  refine ⟨l.takeWhile isOWS, (l.dropWhile isOWS).rtakeWhile isOWS, ?_, fun x hx => isOWS_iff.1 (List.mem_takeWhile_imp hx),
    fun x hx => isOWS_iff.1 (List.mem_rtakeWhile_imp hx)⟩
  rw [trimOWS_eq_rdropWhile, List.append_assoc, List.rdropWhile_append_rtakeWhile, List.takeWhile_append_dropWhile]

theorem trimOWS_head (l : List Byte) : ∀ x ∈ (trimOWS l).head?, ¬ SpaceOrTab x := by
  intro x hx
  obtain ⟨t, ht⟩ : trimOWS l <+: l.dropWhile isOWS := List.rdropWhile_prefix isOWS _
  have hhead : (l.dropWhile isOWS).head? = some x := by rw [← ht, List.head?_append, hx, Option.some_or]
  have hnot := List.head?_dropWhile_not isOWS l
  rw [hhead] at hnot
  exact not_spaceOrTab_of_isOWS_eq_false hnot

theorem trimOWS_getLast (l : List Byte) : ∀ x ∈ (trimOWS l).getLast?, ¬ SpaceOrTab x := by
  intro x hx
  obtain ⟨hne, rfl⟩ := List.mem_getLast?_eq_getLast hx
  exact mt isOWS_iff.2 (List.rdropWhile_last_not isOWS (l.dropWhile isOWS) hne)

theorem headerField_of_noColon {l : List Byte} (h : chColon ∉ l) : headerField l = none := by
  simp [headerField, h]

/-- The first ':' of a line ends its name, and what follows it, trimmed, is the value (44_validate.md R207). -/
theorem headerField_of_colon {name : List Byte} (rest : List Byte) (h : chColon ∉ name) :
    headerField (name ++ chColon :: rest) = some (name, trimOWS rest) := by
  have hname : ∀ b ∈ name, (b != chColon) = true := fun b hb => bne_iff_ne.2 fun e => h (e ▸ hb)
  simp [headerField, List.takeWhile_append_of_pos hname, List.dropWhile_append_of_pos hname]

/-! ## Comparing names -/

theorem lower_toNat_of_upper {b : Byte} (h : 0x41 ≤ b.toNat ∧ b.toNat ≤ 0x5A) : (lower b).toNat = b.toNat + 0x20 := by
  rw [lower, if_pos h]
  bv_omega

theorem lower_of_not_upper {b : Byte} (h : ¬ (0x41 ≤ b.toNat ∧ b.toNat ≤ 0x5A)) : lower b = b := if_neg h

/-- `ieq` compares the folded bytes at each index. -/
theorem ieq_iff (p q : List Byte) :
    ieq p q = true ↔ p.length = q.length ∧ ∀ i < p.length, ∀ x ∈ p[i]?, ∀ y ∈ q[i]?, lower x = lower y := by
  rw [ieq, beq_iff_eq]
  refine ⟨fun h => ⟨by simpa using congrArg List.length h, fun i _ x hx y hy => ?_⟩, fun ⟨hlen, h⟩ => ?_⟩
  · have hi : (p.map lower)[i]? = (q.map lower)[i]? := by rw [h]
    rw [List.getElem?_map, List.getElem?_map, hx, hy] at hi
    exact Option.some.inj hi
  · refine List.ext_getElem (by simpa using hlen) fun i hp hq => ?_
    rw [List.length_map] at hp hq
    simpa using h i hp p[i] (List.getElem?_eq_getElem hp) q[i] (List.getElem?_eq_getElem hq)

section
variable {name : List Byte} {f : List Byte × List Byte} (fs : List (List Byte × List Byte))

theorem valuesOf_cons_of_ieq (h : ieq f.1 name = true) : valuesOf name (f :: fs) = f.2 :: valuesOf name fs := by
  simp [valuesOf, h]

theorem valuesOf_cons_of_not_ieq (h : ieq f.1 name = false) : valuesOf name (f :: fs) = valuesOf name fs := by
  simp [valuesOf, h]

end

/-- Settles O47: the lines from the recursion of `splitLines`, a field from the first colon of its line and `trimOWS`, the
comparison byte by byte. -/
theorem linesAndFieldsOfTheBlock : Obligations.LinesAndFieldsOfTheBlock := by
  refine ⟨fun b => ⟨?_, intercalate_splitLines b, fun l hl i _ =>
      take_drop_ne_of_not_infix (not_crlf_infix_of_mem_splitLines b l hl) i 2⟩,
    fun b => congrArg (List.filterMap headerField) (List.drop_one (l := splitLines b)), fun l h => headerField_of_noColon h,
    fun name rest h => ?_, fun b => ⟨lower_toNat_of_upper, lower_of_not_upper⟩, ieq_iff,
    fun name f fs => ⟨rfl, valuesOf_cons_of_ieq fs, valuesOf_cons_of_not_ieq fs⟩, rfl, rfl, rfl, rfl⟩
  · obtain ⟨l, ls, hl⟩ := splitLines_eq_cons b
    simp [hl]
  · obtain ⟨lead, trail, hrest, hlead, htrail⟩ := trimOWS_decomposes rest
    exact ⟨lead, trimOWS rest, trail, headerField_of_colon rest h, hrest, hlead, htrail, trimOWS_head rest,
      trimOWS_getLast rest⟩

end Sys2Proof.Machine
end

section
/-!
PROOFS. VALIDATE (44_validate.md): its argument check, the search for the end of the block, the judgement of a block that is
present in the order of R206-R209, and what the result depends on (R212).
-/

namespace Sys2Proof.Machine

open Sys2Proof.Stated

/-! ## Before a block is found -/

section
variable {s : State} {p : List Byte}

/-- Where every byte is written, `writtenPrefix` collects them all. -/
theorem State.writtenPrefix_of_bytesAt {a n : Nat} (h : BytesAt s.buf a p) (hn : p.length = n) :
    s.writtenPrefix a n = p := by
  induction p generalizing a n with
  | nil => exact hn ▸ rfl
  | cons b p ih =>
    obtain ⟨hb, hp⟩ := bytesAt_cons.1 h
    subst hn
    simp [State.writtenPrefix, hb, ih hp rfl]

/-- A written source region with no CR LF CR LF holds no block (44_validate.md R204). -/
theorem headerBlock_of_noEnd (hlen : p.length = s.srcLen.toNat) (hbytes : BytesAt s.buf s.srcAddr.toNat p)
    (hnone : ∀ i, i + 4 ≤ p.length → (p.drop i).take 4 ≠ terminator) : headerBlock s = .ok none := by
  by_cases hshort : s.srcLen.toNat < 4
  · exact if_pos hshort
  · simp [headerBlock, hshort, State.writtenPrefix_of_bytesAt hbytes hlen, findHeaderEnd_eq_none hnone, hlen]

theorem exec_validate_of_noBlock (hv : ValidateRuns s) (hb : headerBlock s.clearResults = .ok none) :
    exec .validate s = .next (outcome s (statusOf .needHeaderEnd) 0 0 0 (s.srcLen.toNat + 1)) := by
  obtain ⟨hsrc, haux, hne⟩ := hv
  calc exec .validate s = validateBody s.clearResults := withSrcAux_pass hsrc haux
    _ = need .needHeaderEnd (s.srcLen.toNat + 1) s.clearResults := by simp [validateBody, hne, hb]
    _ = .next (outcome s (statusOf .needHeaderEnd) 0 0 0 (s.srcLen.toNat + 1)) := by
      rw [need, raise, failed_early]
      rfl

theorem exec_validate_of_auxEmpty (hsrc : SrcFits s) (haux : AuxFits s) (h0 : s.auxLen.toNat = 0) :
    exec .validate s = .next (outcome s (statusOf .auxEmpty) 0 0 0 0) :=
  calc exec .validate s = validateBody s.clearResults := withSrcAux_pass hsrc haux
    _ = raise .auxEmpty s.clearResults := if_pos h0
    _ = .next (outcome s (statusOf .auxEmpty) 0 0 0 0) := raise_clearResults .auxEmpty s

theorem exec_validate_of_auxOutOfRange (haux : ¬ AuxFits s) :
    exec .validate s = .next (outcome s (statusOf .regionOutOfRange) 0 0 0 0) :=
  withRegions_outOfRange (.inr haux)

end

/-- Settles O42: the argument check comes before the search for the block. -/
theorem validateNeedsAnExpectedValue : Obligations.ValidateNeedsAnExpectedValue :=
  fun _ hsrc haux h0 => exec_validate_of_auxEmpty hsrc haux h0

/-- Settles O43: the search finds no end in the written region. -/
theorem validateNeedsTheHeaderEnd : Obligations.ValidateNeedsTheHeaderEnd :=
  fun s _ hv hlen hbytes hnone => exec_validate_of_noBlock hv (headerBlock_of_noEnd (s := s.clearResults) hlen hbytes hnone)

/-! ## The checks on the lines of a block, in their order -/

/-- None of the three required headers stands on more than one line (44_validate.md R208). -/
abbrev NoDuplicate (b : List Byte) : Prop :=
  (valuesOf txtUpgrade (blockFields b)).length ≤ 1 ∧ (valuesOf txtConnection (blockFields b)).length ≤ 1 ∧
    (valuesOf txtAccept (blockFields b)).length ≤ 1

section
variable {b : List Byte}

theorem linesCheck_of_badStatus (h : statusLineOk ((splitLines b).headD []) = false) :
    linesCheck (splitLines b) = some .statusNot101 := if_pos h

variable (hstatus : statusLineOk ((splitLines b).headD []) = true)
include hstatus

theorem linesCheck_of_duplicate (h : 1 < (valuesOf txtUpgrade (blockFields b)).length ∨
    1 < (valuesOf txtConnection (blockFields b)).length ∨ 1 < (valuesOf txtAccept (blockFields b)).length) :
    linesCheck (splitLines b) = some .duplicateHeader := by
  rw [linesCheck, if_neg (ne_false_of_eq_true hstatus)]
  exact if_pos h

variable (hdup : NoDuplicate b)
include hdup

/-- What is left of the checks once the status line has passed and no required header is doubled (44_validate.md R209). -/
theorem linesCheck_of_noDuplicate : linesCheck (splitLines b) =
    if (valuesOf txtUpgrade (blockFields b)).any (ieq · txtWebsocket) = false then some .upgradeBad
    else if (valuesOf txtConnection (blockFields b)).any (ieq · txtUpgrade) = false then some .connectionBad
    else if valuesOf txtAccept (blockFields b) = [] then some .acceptMissing
    else none := by
  obtain ⟨hup, hconn, hacc⟩ := hdup
  rw [linesCheck, if_neg (ne_false_of_eq_true hstatus)]
  refine if_neg ?_
  rintro (h | h | h)
  · exact Nat.not_lt.2 hup h
  · exact Nat.not_lt.2 hconn h
  · exact Nat.not_lt.2 hacc h

theorem linesCheck_of_badUpgrade (h : ∀ u ∈ valuesOf txtUpgrade (blockFields b), ieq u txtWebsocket = false) :
    linesCheck (splitLines b) = some .upgradeBad := by
  rw [linesCheck_of_noDuplicate hstatus hdup, if_pos (List.any_eq_false.2 fun u hu => by simp [h u hu])]

variable (hup : ∃ u ∈ valuesOf txtUpgrade (blockFields b), ieq u txtWebsocket = true)
include hup

theorem linesCheck_of_badConnection (h : ∀ c ∈ valuesOf txtConnection (blockFields b), ieq c txtUpgrade = false) :
    linesCheck (splitLines b) = some .connectionBad := by
  rw [linesCheck_of_noDuplicate hstatus hdup, if_neg (ne_false_of_eq_true (List.any_eq_true.2 hup)),
    if_pos (List.any_eq_false.2 fun c hc => by simp [h c hc])]

variable (hconn : ∃ c ∈ valuesOf txtConnection (blockFields b), ieq c txtUpgrade = true)
include hconn

/-- The last check before the Accept value is compared: the header is there. -/
theorem linesCheck_of_goodConnection : linesCheck (splitLines b) =
    if valuesOf txtAccept (blockFields b) = [] then some .acceptMissing else none := by
  rw [linesCheck_of_noDuplicate hstatus hdup, if_neg (ne_false_of_eq_true (List.any_eq_true.2 hup)),
    if_neg (ne_false_of_eq_true (List.any_eq_true.2 hconn))]

end

/-! ## A block that is present -/

section
variable {s t : State} {b x : List Byte} {c : Cause}

/-- Where a check on the lines fails, VALIDATE ends in its cause, and R_CONSUMED counts the block (44_validate.md R205). -/
theorem exec_validate_of_cause (hv : ValidateRuns s) (hb : BlockPresent s b) (hc : linesCheck (splitLines b) = some c) :
    exec .validate s = .next (outcome s (statusOf c) 0 0 (b.length + 4) 0) := by
  rw [exec_validate_of_block hv (headerBlock_of_present (s := s.clearResults) hb)]
  simp only [validateBlock, hc]
  rw [raise, failed_consumed]
  rfl

/-- The STATUS of comparing the Accept values of a block with the auxiliary bytes (44_validate.md R207, R209). -/
def acceptStatus (b x : List Byte) : Word :=
  if valuesOf txtAccept (blockFields b) = [x] then statusOk else statusOf .acceptMismatch

/-- Where the lines pass, VALIDATE reads the auxiliary region and compares. -/
theorem exec_validate_of_goodLines (hv : ValidateRuns s) (hb : BlockPresent s b) (hc : linesCheck (splitLines b) = none) :
    exec .validate s = reading (s.readBytes s.auxAddr.toNat s.auxLen.toNat) fun x =>
      .next (outcome s (acceptStatus b x) 0 0 (b.length + 4) 0) := by
  rw [exec_validate_of_block hv (headerBlock_of_present (s := s.clearResults) hb)]
  simp only [validateBlock, hc]
  have hread : (s.clearResults.setConsumed (b.length + 4)).readBytes s.auxAddr.toNat s.auxLen.toNat
      = s.readBytes s.auxAddr.toNat s.auxLen.toNat :=
    State.readBytes_congr (s := s.clearResults.setConsumed (b.length + 4)) (t := s) rfl _ _
  refine congrArg₂ reading hread (funext fun x => ?_)
  rw [acceptStatus, blockFields]
  split_ifs
  · rw [finishOk, succeeded_validate]
    rfl
  · rw [raise, failed_consumed]
    rfl

theorem exec_validate_of_auxBytes (hv : ValidateRuns s) (hb : BlockPresent s b) (hc : linesCheck (splitLines b) = none)
    (hlen : x.length = s.auxLen.toNat) (hx : BytesAt s.buf s.auxAddr.toNat x) :
    exec .validate s = .next (outcome s (acceptStatus b x) 0 0 (b.length + 4) 0) := by
  rw [exec_validate_of_goodLines hv hb hc, State.readBytes_bytesAt hx hlen, reading_ok]

end

/-- Settles O45: each failure is one check on the lines, the ones before it passed, and the mismatch the comparison after
them. -/
theorem validateReportsTheFirstFailure : Obligations.ValidateReportsTheFirstFailure := by
  refine fun s b hv hb => ⟨fun h => exec_validate_of_cause hv hb (linesCheck_of_badStatus h), fun hstatus =>
    ⟨fun h => exec_validate_of_cause hv hb (linesCheck_of_duplicate hstatus h), fun hdup =>
      ⟨fun h => exec_validate_of_cause hv hb (linesCheck_of_badUpgrade hstatus hdup h), fun hup =>
        ⟨fun h => exec_validate_of_cause hv hb (linesCheck_of_badConnection hstatus hdup hup h), fun hconn => ?_⟩⟩⟩⟩
  have hcheck := linesCheck_of_goodConnection hstatus hdup hup hconn
  refine ⟨fun hmissing => exec_validate_of_cause hv hb (hcheck.trans (if_pos hmissing)), fun acc x hacc hlen hx hne => ?_⟩
  have hpass : linesCheck (splitLines b) = none := hcheck.trans (if_neg (by simp [hacc]))
  have hmismatch : acceptStatus b x = statusOf .acceptMismatch := if_neg (by simp [hacc, hne])
  rw [exec_validate_of_auxBytes hv hb hpass hlen hx, hmismatch]
  rfl

/-- Settles O44: the checks on the lines pass, and the one Accept value is the auxiliary bytes. -/
theorem validateAcceptsTheUpgrade : Obligations.ValidateAcceptsTheUpgrade := by
  intro s b up conn acc hv hb hstatus hup hweb hconn hupg hacc hlen hbytes
  have hdup : NoDuplicate b := by simp [NoDuplicate, hup, hconn, hacc]
  have hcheck := linesCheck_of_goodConnection hstatus hdup ⟨up, by simp [hup], hweb⟩ ⟨conn, by simp [hconn], hupg⟩
  have hpass : linesCheck (splitLines b) = none := hcheck.trans (if_neg (by simp [hacc]))
  have hmatch : acceptStatus b acc = statusOk := if_pos hacc
  rw [exec_validate_of_auxBytes hv hb hpass hlen hbytes, hmatch]
  rfl

/-! ## What the result depends on -/

/-- Two outcomes with one STATUS and one R_CONSUMED agree as R212 asks, whatever states they are the outcomes of. -/
theorem endAlike_of_outcomes {o o' : Out} {s s' t : State} {w : Word} {n : Nat} (h : o = .next (outcome s w 0 0 n 0))
    (h' : o' = .next (outcome s' w 0 0 n 0)) (ht : o = .next t) :
    ∃ t', o' = .next t' ∧ t'.status = t.status ∧ t'.rConsumed = t.rConsumed := by
  obtain rfl := Host.Outcome.next.inj (h.symm.trans ht)
  exact ⟨_, h', rfl, rfl⟩

/-- Settles O48: a refusal before the block is read has the same cause in both states, a failed check is one of the block
alone, and the comparison reads the same auxiliary bytes. -/
theorem validateDependsOnTheBlockOnly : Obligations.ValidateDependsOnTheBlockOnly := by
  intro s s' t b hsrc hsrc' haux hb hb' hauxLen hsame ht
  by_cases hfits : AuxFits s
  · by_cases h0 : s.auxLen.toNat = 0
    · exact endAlike_of_outcomes (exec_validate_of_auxEmpty hsrc hfits h0)
        (exec_validate_of_auxEmpty hsrc' (haux.1 hfits) (hauxLen ▸ h0)) ht
    · have hv : ValidateRuns s := ⟨hsrc, hfits, h0⟩
      have hv' : ValidateRuns s' := ⟨hsrc', haux.1 hfits, hauxLen ▸ h0⟩
      cases hc : linesCheck (splitLines b) with
      | some c => exact endAlike_of_outcomes (exec_validate_of_cause hv hb hc) (exec_validate_of_cause hv' hb' hc) ht
      | none =>
        obtain ⟨x, hx, -⟩ := reading_next.1 ((exec_validate_of_goodLines hv hb hc).symm.trans ht)
        obtain ⟨hlen, hbytes⟩ := State.readBytes_ok.1 hx
        have hbytes' : BytesAt s'.buf s'.auxAddr.toNat x := bytesAt_of_read_eq hbytes (hlen ▸ hsame)
        exact endAlike_of_outcomes (exec_validate_of_auxBytes hv hb hc hlen hbytes)
          (exec_validate_of_auxBytes hv' hb' hc (hauxLen ▸ hlen) hbytes') ht
  · exact endAlike_of_outcomes (exec_validate_of_auxOutOfRange hfits)
      (exec_validate_of_auxOutOfRange (mt haux.2 hfits)) ht

end Sys2Proof.Machine
end

section
/-!
PROOFS. STATUS (60_exceptions.md): the words the rules can write are those of OK and of the causes, and every step keeps STATUS
one of them (R236).
-/

namespace Sys2Proof.Machine

open Sys2Proof.Stated Sys2Proof.Safety

/-! ## The STATUS words -/

/-- The written-out words are 0, OK, and the words of the causes in the order of their tables (60_exceptions.md R231-R236). -/
theorem statusWords_eq : statusWords = 0 :: statusOk :: causes.map statusOf := by decide

theorem statusLegal_iff_mem (s : State) : StatusLegal s ↔ s.status ∈ statusWords := by
  simp [StatusLegal, statusWords_eq, mem_causes, eq_comm (a := s.status)]

/-! ## STATUS stays legal -/

/-- A command ends with a cause, OK or cleared, so it leaves a legal STATUS whatever it was. -/
theorem CommandLeaves.statusLegal {s t : State} (h : CommandLeaves s t) : StatusLegal t := by
  cases h with
  | failed c => exact .inr (.inr ⟨c, rfl⟩)
  | succeeded => exact .inr (.inl rfl)
  | cleared => exact .inl rfl

theorem SameOutcome.statusLegal {s t : State} (h : SameOutcome s t) (hs : StatusLegal s) : StatusLegal t := by
  rwa [StatusLegal, h.status]

theorem ServedBy.statusLegal {op : HostOp} {s t : State} (h : ServedBy op s t) (hs : StatusLegal s) : StatusLegal t := by
  obtain ⟨i, h⟩ | h | rfl := h.outcome_cases
  · exact (exec_leaves h).statusLegal
  · exact h.statusLegal hs
  · exact .inl rfl

/-- Settles O58: the words are those of the causes, a command writes one of them, reset writes 0, and any other transaction
keeps STATUS. -/
theorem stepKeepsStatusLegal : Obligations.StepKeepsStatusLegal := by
  refine ⟨statusLegal_iff_mem, fun s t hs h => ?_⟩
  obtain ⟨-, rfl⟩ | ⟨op, rest, -, h⟩ := step_next h
  · exact hs
  · exact (serve_servedBy h).statusLegal (s := s.taken rest) hs

end Sys2Proof.Machine
end

section
/-!
PROOFS. Reset (70_reset_and_hazards.md): the state a step that serves it leaves, what that state reads (R280, R281), and that it
meets every invariant.
-/

namespace Sys2Proof.Machine

open Sys2Proof.Stated Sys2Proof.Safety

/-- A step that serves reset leaves the state after reset, for the same parameters and with the rest of the queue. -/
theorem step_reset {s : State} {rest : List HostOp} (h : s.pending = .reset :: rest) :
    step s = .next (State.afterReset s.cfg s.draws rest) := by
  rw [step_of_pending h]
  rfl

section
variable (c : Config) (d : Nat) (q : List HostOp)

/-- After reset only ID and CTRL read other than 0 (70_reset_and_hazards.md R280). -/
theorem windowValue_afterReset (off : Nat) : windowValue (State.afterReset c d q) off =
    if off = 0x00 then 0x57534631 else if off = 0x04 then 0x00000003 else 0 := by
  simp only [windowValue, State.afterReset, ite_self]

/-- Every invariant holds by the reset values; only that of the parameters needs their bounds. -/
theorem legal_afterReset (hc : c.Valid) : Legal (State.afterReset c d q) := by
  have hbuf : BufLegal (State.afterReset c d q) := ⟨rfl, rfl⟩
  have hctrl : CtrlLegal (State.afterReset c d q) := (by decide : (0x00000003 : Word) &&& 0xFFFFFFF8 = 0)
  have hstatus : StatusLegal (State.afterReset c d q) := .inl rfl
  have hframe : FrameLegal (State.afterReset c d q) := frameLegal_of_cleared rfl rfl rfl
  have hcounts : CountsLegal (State.afterReset c d q) := ⟨fun _ _ => rfl, fun _ => ⟨rfl, rfl⟩⟩
  exact ⟨hc, hbuf, hctrl, hstatus, hframe, hcounts⟩

end

/-- Settles O49: the step leaves the state after reset, whose registers are read by the window and whose BUF is empty. -/
theorem resetLeaves : Obligations.ResetLeaves := fun s rest hp =>
  ⟨State.afterReset s.cfg s.draws rest, step_reset hp, rfl, rfl, rfl, readOffset_eq_windowValue _,
    windowValue_afterReset s.cfg s.draws rest, fun _ => rfl⟩

/-- Settles O60: `State.reset` is the state after reset for parameters in their bounds. -/
theorem resetIsLegal : Obligations.ResetIsLegal :=
  ⟨legal_afterReset Config.sample 0 [] (by decide), legal_afterReset⟩

end Sys2Proof.Machine
end
